-- ==== Sys2Proof/Word.lean ====
section
/-! DEFINITION. The word types of DPP: spec 00_scope.md R7 (uN is an unsigned N-bit value, sN a two's-complement one), 20_memory.md R36 (24-bit byte address, 32-bit data). -/

namespace Sys2Proof

/-- A u8: an output byte, a channel, a gray value. -/
abbrev Byte := BitVec 8

/-- A u16 or s16: a dimension, a cursor coordinate, an ERR entry. -/
abbrev Half := BitVec 16

/-- A u32: a register value, a pixel word, a command word. -/
abbrev Word := BitVec 32

/-- A byte address of the host window (R36). -/
abbrev Addr := BitVec 24

end Sys2Proof
end

