-- ==== Sys2Proof/Syntax.lean ====
section
/-! DEFINITION. The commands of DPP: one constructor per row of spec/opcode_table.json (30_encoding.md R60). -/

namespace Sys2Proof

/-- A command, as the host writes it to CTRL.
No command has an operand or an immediate (R62). -/
inductive Instr where
  /-- R72: no effect in any STATE. -/
  | nop
  /-- R73: start a job on IMG, IMG_W and IMG_H. -/
  | process
  /-- R74: abandon any job and return to IDLE. -/
  | reset
  deriving DecidableEq, Repr

end Sys2Proof
end

