-- ==== Sys2Proof/WellFormed.lean ====
section
/-! DEFINITION. Which command words and commands are well formed (spec 30_encoding.md R58, R60, R61). -/

namespace Sys2Proof

/-- R60: the opcode of each command. -/
def Instr.opcode : Instr → Byte
  | .nop => 0x00
  | .process => 0x01
  | .reset => 0x02

/-- R61: the opcodes the map assigns; 0x03 to 0xFF are reserved. -/
def opAssigned (op : Byte) : Bool := decide (op.toNat ≤ 2)

/-- R58, R61: the field RSVD, bits [31:8], must be zero. -/
def rsvdZero (w : Word) : Bool := decide (w.extractLsb' 8 24 = 0)

/-- R61: a word that is no illegal encoding. -/
def wordWellFormed (w : Word) : Bool := rsvdZero w && opAssigned (w.extractLsb' 0 8)

/-- A command is well formed when the map assigns its opcode; it has no operand to check (R62). -/
def Instr.wellFormed (i : Instr) : Bool := opAssigned i.opcode

end Sys2Proof
end

