-- ==== Sys2Proof/Decode.lean ====
section
/-! DEFINITION. The decoder of command words (spec 30_encoding.md R58 to R61) and the encoder. -/

namespace Sys2Proof

/-- Why the decoder's verdict is ILLEGAL (R59, R61). -/
inductive Illegal where
  /-- RSVD, bits [31:8], is not zero. -/
  | rsvdNonZero
  /-- OP is one of 0x03 to 0xFF. -/
  | opReserved
  /-- Fewer than the four bytes of a command word were given (R58: the one length is 32 bits). -/
  | truncated
  deriving DecidableEq, Repr

/-- R58: the field OP of a command word. -/
def opField (w : Word) : Byte := w.extractLsb' 0 8

/-- R58: the field RSVD of a command word. -/
def rsvdField (w : Word) : BitVec 24 := w.extractLsb' 8 24

/-- Decode(w) of R59, total on every u32. -/
def decodeWord (w : Word) : Except Illegal Instr :=
  if rsvdField w ≠ 0 then .error .rsvdNonZero
  else if opField w = 0x00 then .ok .nop
  else if opField w = 0x01 then .ok .process
  else if opField w = 0x02 then .ok .reset
  else .error .opReserved

/-- R47: four bytes, the one at the lowest address first, as a little-endian word. -/
def wordOfBytes (b0 b1 b2 b3 : Byte) : Word := b3 ++ b2 ++ b1 ++ b0

/-- R47: byte j of a word is its bits [8j+7:8j]. -/
def byteOfWord (w : Word) (j : Nat) : Byte := w.extractLsb' (8 * j) 8

/-- R47: the four bytes of a word, the one at the lowest address first. -/
def bytesOfWord (w : Word) : List Byte :=
  [byteOfWord w 0, byteOfWord w 1, byteOfWord w 2, byteOfWord w 3]

/-- The decoder on any bytes: the command of the first four and the bytes after them. -/
def decodeBytes : List Byte → Except Illegal (Instr × List Byte)
  | b0 :: b1 :: b2 :: b3 :: rest =>
    match decodeWord (wordOfBytes b0 b1 b2 b3) with
    | .ok i => .ok (i, rest)
    | .error r => .error r
  | _ => .error .truncated

/-- The command word of a command: RSVD zero, OP from the map (R58, R60). -/
def encode (i : Instr) : Word := (0 : BitVec 24) ++ i.opcode

/-- The bytes of a command word, the one at the lowest address first (R47). -/
def encodeBytes (i : Instr) : List Byte := bytesOfWord (encode i)

/-- The command word whose bits are w, numbered as spec/opcode_table.json numbers them; every bit from nbits up is zero. -/
def tableWord (nbits w : Nat) : Word := BitVec.ofNat 32 (w % 2 ^ nbits)

/-- The command this decoder reads from the table's bits, laid out as the window stores a word (R47). -/
def decodeTableWord (nbits w : Nat) : Option Instr :=
  match decodeBytes (bytesOfWord (tableWord nbits w)) with
  | .ok r => some r.1
  | .error _ => none

end Sys2Proof
end

