-- ==== Sys2Proof/Config.lean ====
section
/-! DEFINITION. What is fixed for one DPP: the parameters of spec 00_scope.md R5, checked at construction (60_exceptions.md R127), the constants the spec decides, and the free values. -/

namespace Sys2Proof.Config

/-- The construction parameters before any check (R5, R17).
`inkBit` and `rowPad` are parameters because the source's literals disagree (90_conflicts.md C1, C2). -/
structure Raw where
  panelW : Nat
  panelH : Nat
  imgCap : Nat
  outCap : Nat
  inkBit : BitVec 1
  rowPad : Bool
  deriving DecidableEq, Repr

/-- R17, R127: both dimensions in 1..65535 and their product a multiple of 8. -/
def Raw.geometryOk (r : Raw) : Bool :=
  decide (1 ≤ r.panelW ∧ r.panelW ≤ 65535) && decide (1 ≤ r.panelH ∧ r.panelH ≤ 65535)
    && decide (r.panelW * r.panelH % 8 = 0)

/-- R5: IMG_CAP holds one panel and fits its slot of the address map. -/
def Raw.imgCapOk (r : Raw) : Bool :=
  decide (r.panelW * r.panelH ≤ r.imgCap ∧ r.imgCap ≤ 2 ^ 20)

/-- R5: OUT_CAP holds one packed panel and fits its slot of the address map. -/
def Raw.outCapOk (r : Raw) : Bool :=
  decide (r.panelH * ((r.panelW + 7) / 8) ≤ r.outCap ∧ r.outCap ≤ 2 ^ 22)

/-- The configuration type: it admits only valid geometries (R127) and capacities (R5). -/
structure Params extends Raw where
  geometry : toRaw.geometryOk = true
  imgFits : toRaw.imgCapOk = true
  outFits : toRaw.outCapOk = true
  deriving DecidableEq, Repr

/-- The values R5 suggests or decides, and the source's example geometry 800 x 480 (DESIGN CHOICE, log 3). -/
def defaultParams : Params where
  panelW := 800
  panelH := 480
  imgCap := 384000
  outCap := 48000
  inkBit := 1
  rowPad := true
  geometry := by decide
  imgFits := by decide
  outFits := by decide

/-- R5, R79: the gray weights in units of 2^-16. -/
def weightR : Nat := 19595
def weightG : Nat := 38470
def weightB : Nat := 7471

/-- R5, R88: the quantisation threshold. -/
def thresh : Int := 128

/-- R6: the diffusion weights in sixteenths, to the right, below-left, below and below-right. -/
def kRight : Int := 7
def kBelowLeft : Int := 3
def kBelow : Int := 5
def kBelowRight : Int := 1

/-- R5, R37: the base addresses of the memory windows. -/
def imgBase : Nat := 0x400000
def outBase : Nat := 0x800000

/-- FREE VALUE (log 5): the n-th word the spec leaves unspecified (20_memory.md R42; 40_commands.md R74). -/
opaque freeWord : Nat → Word

/-- FREE VALUE (log 5): the n-th byte the spec leaves unspecified (20_memory.md R44, R45). -/
opaque freeByte : Nat → Byte

/-- FREE VALUE (log 7): the n-th ERR plane the spec leaves unspecified (40_commands.md R74). -/
opaque freePlane : Nat → List (List Half)

end Sys2Proof.Config
end

