-- ==== Sys2Proof/Machine/State.lean ====
section
/-! DEFINITION. The state of DPP (spec 10_state.md R16) with the host and the interleaving beside it as plain data, the reasons a step can stop, and the state after power-on (70_reset_and_hazards.md R136). -/

namespace Sys2Proof.Machine

/-- STATE, bits [1:0] of STATUS (R20). -/
inductive JobState where
  /-- 0: no job has run since reset, or the last RESET was taken. -/
  | idle
  /-- 1: a job is running. -/
  | busy
  /-- 2: the last job completed. -/
  | done
  /-- 3: the last command was refused with the code in ERR. -/
  | error
  deriving DecidableEq, Repr

/-- ERR, bits [15:8] of STATUS: the codes that are ever raised (60_exceptions.md R119; log 18). -/
inductive ErrCode where
  /-- 0x00. -/
  | none
  /-- 0x01: PROCESS with a dimension 0. -/
  | zeroSize
  /-- 0x02: PROCESS whose image or packed output does not fit. -/
  | oversize
  /-- 0x04: a CTRL word that decodes ILLEGAL. -/
  | illegalCmd
  deriving DecidableEq, Repr

/-- The two agents of 20_memory.md R51. -/
inductive Agent where
  | host
  | engine
  deriving DecidableEq, Repr

/-- One item of the host's program (30_encoding.md R67, R68).
Host-side names are numbers. -/
inductive BusOp where
  /-- MemRead(addr, n), its value bound to the host-side name dst. -/
  | rd (n : Nat) (addr : Addr) (dst : Nat)
  /-- MemWrite(addr, n, v). -/
  | wr (n : Nat) (addr : Addr) (v : Word)
  /-- `wait -> dst`: read STATUS into dst, and again while its STATE is BUSY (log 13). -/
  | wait (dst : Nat)
  deriving DecidableEq, Repr

/-- Memory bytes by window address, in one canonical form: addresses strictly rising.
An address that is not listed has no value: IMG's "unwritten" (R42), OUT's "unspecified" (R45); log 8. -/
abbrev Memory := List Host.Cell

/-- The error plane ERR (R30) as its list of rows: `ERR[y][x]` is entry x of row y. -/
abbrev ErrPlane := List (List Half)

/-- Why a step stops. -/
inductive Fault where
  /-- Raised by a malformed or unmapped host access (20_memory.md R38, R39, R43, R46): a fault of the host program
  (60_exceptions.md R126; 93_implementation_defined.md U7).
  Safe: the machine stops where a host might handle the bus error and go on (log 10). -/
  | busError (addr : Addr)
  deriving DecidableEq, Repr

/-- Why there is no meaning. -/
inductive Refusal where
  /-- Raised by the dispatcher for a command without a meaning.
  Safe; no arm of this model raises it. -/
  | notModelled (mnemonic : String)
  /-- Raised by construction on an invalid geometry, so that no DPP exists (60_exceptions.md R127).
  Safe: it is the spec's ConfigurationError. -/
  | configurationError
  /-- Raised by construction on IMG_CAP or OUT_CAP outside the range of 00_scope.md R5.
  Safe: a DPP that the spec does not describe has no model (log 4). -/
  | capacityOutOfRange
  deriving DecidableEq, Repr

/-- The machine: the tuple of R16, then the model's own fields. -/
structure State where
  /-- The construction constants and parameters (R5, R17). -/
  params : Config.Params
  /-- x[STATUS].STATE (R20). -/
  jobState : JobState
  /-- x[STATUS].REJ (R21). -/
  rej : Bool
  /-- x[STATUS].ERR (R22). -/
  err : ErrCode
  /-- x[IMG_W] (R23). -/
  imgW : Half
  /-- x[IMG_H] (R24). -/
  imgH : Half
  /-- x[OUT_LEN] (R27). -/
  outLen : Word
  /-- IMG (20_memory.md R39), by window address. -/
  img : Memory
  /-- OUT (20_memory.md R43), by window address. -/
  out : Memory
  /-- The job latch (R29): width, height, bytes per row, output length. -/
  jw : Half
  jh : Half
  jbpr : Half
  jlen : Word
  /-- The scan cursor (R15): the next pixel is in row cy, column cx. -/
  cy : Half
  cx : Half
  /-- ERR[y][x] (R30). -/
  errPlane : ErrPlane
  /-- The packer byte and the count of pixel bits it holds (R32). -/
  pk : Byte
  pkn : Nat
  /-- MODEL: the number of free values used so far (log 5). -/
  draws : Nat
  /-- MODEL: the host's accesses still to come, in program order (R51; log 1). -/
  prog : List BusOp
  /-- MODEL: which agent moves next, as far as it is laid down (R51; log 2). -/
  turns : List Agent
  /-- MODEL: the host-side values bound so far, the latest first (R67; log 16). -/
  vars : List (Nat × Word)
  deriving DecidableEq, Repr

/-- The power-on reset state of R136 with given construction parameters.
The job latch, the cursor, ERR and the packer are unspecified there and never read: DESIGN CHOICE zero (log 6). -/
def State.powerOn (p : Config.Params) : State where
  params := p
  jobState := .idle
  rej := false
  err := .none
  imgW := 0
  imgH := 0
  outLen := 0
  img := []
  out := []
  jw := 0
  jh := 0
  jbpr := 0
  jlen := 0
  cy := 0
  cx := 0
  errPlane := []
  pk := 0
  pkn := 0
  draws := 0
  prog := []
  turns := []
  vars := []

/-- The machine right after reset, with the default parameters (log 3). -/
def State.reset : State := State.powerOn Config.defaultParams

end Sys2Proof.Machine
end

