-- ==== Sys2Proof/Machine/Ops.lean ====
section
/-! DEFINITION. The operations every meaning shares: memory, the error plane, free values, truncating division, and the error entry of spec 60_exceptions.md R121. -/

namespace Sys2Proof.Machine

/-! ## Memory -/

/-- What an address that is not listed reads as: no value (R42, R45; log 8). -/
def Memory.unlisted : Option Byte := none

/-- The byte at address a. -/
def Memory.read : Memory → Nat → Option Byte
  | [], _ => Memory.unlisted
  | c :: m, a => if c.1 = a then some c.2 else Memory.read m a

/-- The memory with byte b at address a and every other address as before; it keeps the canonical form. -/
def Memory.write : Memory → Nat → Byte → Memory
  | [], a, b => [(a, b)]
  | c :: m, a, b =>
    if a < c.1 then (a, b) :: c :: m
    else if a = c.1 then (a, b) :: m
    else c :: Memory.write m a b

/-- The canonical form: addresses strictly rising.
No listed byte equals what an unlisted address reads as, since that is no value. -/
abbrev Memory.wf (m : Memory) : Prop := List.Pairwise (fun c d : Host.Cell => c.1 < d.1) m

/-- R47: the word whose four bytes stand at a, a+1, a+2, a+3, if all four have a value. -/
def Memory.readWord (m : Memory) (a : Nat) : Option Word :=
  match Memory.read m a, Memory.read m (a + 1), Memory.read m (a + 2), Memory.read m (a + 3) with
  | some b0, some b1, some b2, some b3 => some (wordOfBytes b0 b1 b2 b3)
  | _, _, _, _ => none

/-- R47: v[7:0], v[15:8], v[23:16], v[31:24] stored at a, a+1, a+2, a+3. -/
def Memory.writeWord (m : Memory) (a : Nat) (v : Word) : Memory :=
  Memory.write (Memory.write (Memory.write (Memory.write m a (byteOfWord v 0))
    (a + 1) (byteOfWord v 1)) (a + 2) (byteOfWord v 2)) (a + 3) (byteOfWord v 3)

/-! ## The error plane -/

/-- ERR[y][x] (R30). -/
def ErrPlane.get (p : ErrPlane) (y x : Nat) : Half := (p.getD y []).getD x 0

/-- The plane with ERR[y][x] replaced; a position outside the plane is no entry, and nothing changes. -/
def ErrPlane.set (p : ErrPlane) (y x : Nat) (e : Half) : ErrPlane :=
  List.set p y ((p.getD y []).set x e)

/-- R86: H rows of W entries, every entry 0. -/
def ErrPlane.zero (W H : Nat) : ErrPlane := List.replicate H (List.replicate W 0)

/-- ERR[y][x] <- ERR[y][x] + d, the sum taken exactly and stored as an s16 (R7, R30; log 20). -/
def ErrPlane.add (p : ErrPlane) (y x : Nat) (d : Int) : ErrPlane :=
  ErrPlane.set p y x (BitVec.ofInt 16 ((ErrPlane.get p y x).toInt + d))

/-! ## Integers -/

/-- R7: division by b > 0 truncated toward zero, `sign(a) * floor(|a| / b)`. -/
def tdiv (a b : Int) : Int := a.sign * ((a.natAbs / b.natAbs : Nat) : Int)

/-! ## Free values -/

/-- The next free word: a draw (R42), and the state that has used it (log 5). -/
def State.drawWord (s : State) : Word × State :=
  (Config.freeWord s.draws, { s with draws := s.draws + 1 })

/-- The next free byte: a draw (R44, R45), and the state that has used it (log 5). -/
def State.drawByte (s : State) : Byte × State :=
  (Config.freeByte s.draws, { s with draws := s.draws + 1 })

/-! ## Status -/

/-- x[STATUS].REJ <- 1 (R21). -/
def State.setRej (s : State) : State := { s with rej := true }

/-- R121: the codes on whose error OUT_LEN is zero. -/
def ErrCode.zeroesOutLen : ErrCode → Bool
  | .zeroSize => true
  | .oversize => true
  | .none => false
  | .illegalCmd => false

/-- Error entry: raise BlockError(code) (60_exceptions.md R121).
STATE becomes ERROR and ERR the code, OUT_LEN is zeroed for ZERO_SIZE and OVERSIZE, everything else stays.
There is no vector, no saved context and no mode change. -/
def State.raiseBlockError (s : State) (code : ErrCode) : State :=
  { s with
    jobState := .error
    err := code
    outLen := if code.zeroesOutLen then 0 else s.outLen }

/-- Error exit by RESET (R124, R74): STATE IDLE, REJ and ERR cleared, OUT_LEN 0.
There is no return instruction and nothing to restore. -/
def State.clearStatus (s : State) : State :=
  { s with
    jobState := .idle
    rej := false
    err := .none
    outLen := 0 }

/-- Abandon the job (R74): the job latch, the cursor, ERR and the packer become unspecified (free values, log 7; PKN stays in 0..8),
and every OUT byte becomes unspecified (log 9). -/
def State.abandonJob (s : State) : State :=
  { s with
    out := []
    jw := (Config.freeWord s.draws).setWidth 16
    jh := (Config.freeWord (s.draws + 1)).setWidth 16
    jbpr := (Config.freeWord (s.draws + 2)).setWidth 16
    jlen := Config.freeWord (s.draws + 3)
    cy := (Config.freeWord (s.draws + 4)).setWidth 16
    cx := (Config.freeWord (s.draws + 5)).setWidth 16
    errPlane := Config.freePlane (s.draws + 6)
    pk := Config.freeByte (s.draws + 7)
    pkn := (Config.freeWord (s.draws + 8)).toNat % 9
    draws := s.draws + 9 }

/-- A write of PK and PKN (R32). -/
def State.setPacker (s : State) (pk : Byte) (pkn : Nat) : State := { s with pk := pk, pkn := pkn }

/-- OUT[i] <- b (R43, R105): byte i of OUT stands at OUT_BASE + i. -/
def State.writeOut (s : State) (i : Nat) (b : Byte) : State :=
  { s with out := Memory.write s.out (Config.outBase + i) b }

/-- cur <- (y, x) (R15). -/
def State.setCursor (s : State) (y x : Nat) : State :=
  { s with cy := BitVec.ofNat 16 y, cx := BitVec.ofNat 16 x }

/-- The host's read binds a value to its name dst (R67). -/
def State.bind (s : State) (dst : Nat) (v : Word) : State := { s with vars := (dst, v) :: s.vars }

/-- The host's remaining program (R51). -/
def State.setProg (s : State) (p : List BusOp) : State := { s with prog := p }

/-- The turns still laid down (R51). -/
def State.setTurns (s : State) (t : List Agent) : State := { s with turns := t }

end Sys2Proof.Machine
end

