-- ==== Sys2Proof/Machine/Operands.lean ====
section
/-! DEFINITION. Operands: those PROCESS assembles (spec 30_encoding.md R63), the pixel word's fields (R64), and where a pixel word or an output byte stands (20_memory.md R39, R40, R43). -/

namespace Sys2Proof.Machine

/-- ceil(a / 8) for a >= 0 (R7). -/
def ceil8 (a : Nat) : Nat := (a + 7) >>> 3

/-- R101: the length in bytes of a job's output, computed exactly (R63). -/
def outputLength (rowPad : Bool) (W H : Nat) : Nat :=
  if rowPad then H * ceil8 W else ceil8 (W * H)

/-- R29: the latched bytes per row; 0 where rows are not padded. -/
def bytesPerRow (rowPad : Bool) (W : Nat) : Nat := if rowPad then ceil8 W else 0

/-- R64: the channels of a pixel word.
Alpha, bits [31:24], is read by no rule (R81). -/
def pixelR (p : Word) : Nat := (p.extractLsb' 0 8).toNat
def pixelG (p : Word) : Nat := (p.extractLsb' 8 8).toNat
def pixelB (p : Word) : Nat := (p.extractLsb' 16 8).toNat

/-- R39: the window address of IMG word k. -/
def imgAddr (k : Nat) : Nat := Config.imgBase + 4 * k

/-- R43: the window address of OUT byte i. -/
def outAddr (i : Nat) : Nat := Config.outBase + i

/-- IMG[k], or none while it is unwritten (R39, R42). -/
def State.imgWord (s : State) (k : Nat) : Option Word := Memory.readWord s.img (imgAddr k)

/-- OUT[i], or none while it is unspecified (R43, R45). -/
def State.outByte (s : State) (i : Nat) : Option Byte := Memory.read s.out (outAddr i)

/-- The byte of IMG or OUT at a window address, or none where there is no value. -/
def State.memByte (s : State) (a : Nat) : Option Byte :=
  if a < Config.outBase then Memory.read s.img a else Memory.read s.out a

/-- The word a read of IMG[k] obtains: an unwritten word is a fresh draw (R42). -/
def State.readImg (s : State) (k : Nat) : Word × State :=
  match s.imgWord k with
  | some p => (p, s)
  | none => s.drawWord

/-- R110: the output stream OUT[0], ..., OUT[OUT_LEN - 1], defined only while STATE = DONE. -/
def State.outputStream (s : State) : Option (List Byte) :=
  if s.jobState = .done then (List.range s.outLen.toNat).mapM s.outByte else none

end Sys2Proof.Machine
end

