-- ==== Sys2Proof/Machine/Flags.lean ====
section
/-! DEFINITION. The status bits, DPP's only flags (spec 10_state.md R34): the STATUS register as a word (R19 to R22). -/

namespace Sys2Proof.Machine

/-- R20: the encoding of STATE. -/
def JobState.code : JobState → BitVec 2
  | .idle => 0
  | .busy => 1
  | .done => 2
  | .error => 3

/-- R119: the error codes. -/
def ErrCode.code : ErrCode → Byte
  | .none => 0x00
  | .zeroSize => 0x01
  | .oversize => 0x02
  | .illegalCmd => 0x04

/-- R19: bits [31:16] zero, ERR, bits [7:3] zero, REJ, STATE. -/
def statusWord (st : JobState) (rej : Bool) (err : ErrCode) : Word :=
  (0 : BitVec 16) ++ err.code ++ (0 : BitVec 5) ++ BitVec.ofBool rej ++ st.code

/-- x[STATUS] (R19). -/
def State.status (s : State) : Word := statusWord s.jobState s.rej s.err

/-- STATE = BUSY: a job is running (R20). -/
def State.busy (s : State) : Bool := decide (s.jobState = .busy)

/-- REJ where a host write arrived: set if the write arrived while BUSY (R21, R23), else unchanged. -/
def State.rejIfBusy (s : State) : Bool := s.rej || s.busy

end Sys2Proof.Machine
end

