-- ==== Sys2Proof/Machine/Commands.lean ====
section
/-! DEFINITION. The meanings of the commands (spec 40_commands.md R70 to R74). -/

namespace Sys2Proof.Machine

/-- R72: NOP, no effect in any STATE. -/
def execNop (s : State) : Host.Outcome State Fault Refusal := .next s

/-- R73: an accepted PROCESS on a W x H image with an output of L bytes.
The latch, ERR, the packer and the cursor are set afresh (R29, R33, R86), OUT_LEN, REJ and ERR are cleared, STATE is BUSY. -/
def State.acceptJob (s : State) (W H L : Nat) : State :=
  { s with
    outLen := 0
    jw := BitVec.ofNat 16 W
    jh := BitVec.ofNat 16 H
    jbpr := BitVec.ofNat 16 (bytesPerRow s.params.rowPad W)
    jlen := BitVec.ofNat 32 L
    errPlane := ErrPlane.zero W H
    pk := 0
    pkn := 0
    cy := 0
    cx := 0
    rej := false
    err := .none
    jobState := .busy }

/-- R73, R119: whether a W x H image or its packed output does not fit; the products are exact (R63). -/
def State.tooLarge (s : State) (W H : Nat) : Bool :=
  decide (s.params.imgCap < W * H) || decide (s.params.outCap < outputLength s.params.rowPad W H)

/-- R73: PROCESS; while BUSY its only effect is REJ (R71).
ZERO_SIZE comes before OVERSIZE (R122). -/
def execProcess (s : State) : Host.Outcome State Fault Refusal :=
  let W := s.imgW.toNat
  let H := s.imgH.toNat
  if s.busy then .next s.setRej
  else if W = 0 ∨ H = 0 then .next (s.raiseBlockError .zeroSize)
  else if s.tooLarge W H then .next (s.raiseBlockError .oversize)
  else .next (s.acceptJob W H (outputLength s.params.rowPad W H))

/-- R74: RESET, in every STATE. -/
def execReset (s : State) : Host.Outcome State Fault Refusal := .next s.clearStatus.abandonJob

/-- What a CTRL write of an ILLEGAL word does: BlockError(ILLEGAL_CMD), or REJ alone while BUSY (R61, R70, R71). -/
def illegalCommand (s : State) : State :=
  if s.busy then s.setRej else s.raiseBlockError .illegalCmd

end Sys2Proof.Machine
end

