-- ==== Sys2Proof/Machine/Dispatch.lean ====
section
/-! DEFINITION. One arm per command: its meaning. -/

namespace Sys2Proof.Machine

def exec (i : Instr) (s : State) : Host.Outcome State Fault Refusal :=
  match i with
  | .nop => Sys2Proof.Machine.execNop s
  | .process => Sys2Proof.Machine.execProcess s
  | .reset => Sys2Proof.Machine.execReset s

end Sys2Proof.Machine
end

