-- ==== Sys2Proof/Machine/Bus.lean ====
section
/-! DEFINITION. Host accesses: the address map and the accesses it defines (spec 20_memory.md R36 to R47), the registers (10_state.md R18 to R28), command dispatch (40_commands.md R70). -/

namespace Sys2Proof.Machine

/-- The regions of R37. -/
inductive Region where
  | reg
  | img
  | out
  | unmapped
  deriving DecidableEq, Repr

/-- R37: the region of a window address. -/
def regionOf (p : Config.Params) (a : Nat) : Region :=
  if a < 0x40 then .reg
  else if Config.imgBase ≤ a ∧ a < Config.imgBase + 4 * p.imgCap then .img
  else if Config.outBase ≤ a ∧ a < Config.outBase + p.outCap then .out
  else .unmapped

/-- An aligned 32-bit access (R38, R39). -/
def alignedWord (n a : Nat) : Bool := decide (n = 4) && decide (a % 4 = 0)

/-- R43: a naturally aligned read of 1, 2 or 4 bytes, wholly inside OUT. -/
def outReadOk (p : Config.Params) (n a : Nat) : Bool :=
  (decide (n = 1) || decide (n = 2) || decide (n = 4)) && decide (a % n = 0)
    && decide (a + n ≤ Config.outBase + p.outCap)

/-- Whether MemRead(a, n) is defined (R38, R39, R43, R46). -/
def readDefined (p : Config.Params) (n a : Nat) : Bool :=
  match regionOf p a with
  | .reg => alignedWord n a
  | .img => alignedWord n a
  | .out => outReadOk p n a
  | .unmapped => false

/-- Whether MemWrite(a, n, v) is defined (R38, R39, R43, R46); no write to OUT is. -/
def writeDefined (p : Config.Params) (n a : Nat) : Bool :=
  match regionOf p a with
  | .reg => alignedWord n a
  | .img => alignedWord n a
  | .out => false
  | .unmapped => false

/-! ## Registers -/

/-- The value a defined read of the register at an offset returns: CTRL (R18), STATUS (R19), IMG_W (R23), IMG_H (R24),
PANEL_W (R25), PANEL_H (R26), OUT_LEN (R27), and 0 at the reserved offsets (R28). -/
def regRead (s : State) (off : Nat) : Word :=
  match off with
  | 0x00 => 0
  | 0x04 => s.status
  | 0x08 => s.imgW.setWidth 32
  | 0x0C => s.imgH.setWidth 32
  | 0x10 => BitVec.ofNat 32 s.params.panelW
  | 0x14 => BitVec.ofNat 32 s.params.panelH
  | 0x18 => s.outLen
  | _ => 0

/-- R23: a write of IMG_W stores v[15:0]; while BUSY it also sets REJ. -/
def State.writeImgW (s : State) (v : Word) : State :=
  { s with imgW := v.setWidth 16, rej := s.rejIfBusy }

/-- R24: a write of IMG_H stores v[15:0]; while BUSY it also sets REJ. -/
def State.writeImgH (s : State) (v : Word) : State :=
  { s with imgH := v.setWidth 16, rej := s.rejIfBusy }

/-- R70: command dispatch of the word w written to CTRL. -/
def issueCommand (s : State) (w : Word) : Host.Outcome State Fault Refusal :=
  match decodeWord w with
  | .ok i => exec i s
  | .error _ => .next (illegalCommand s)

/-- The effect of a defined write to the register at an offset; the read-only and the reserved ones ignore it (R19, R25 to R28). -/
def regWrite (s : State) (off : Nat) (v : Word) : Host.Outcome State Fault Refusal :=
  match off with
  | 0x00 => issueCommand s v
  | 0x08 => .next (s.writeImgW v)
  | 0x0C => .next (s.writeImgH v)
  | _ => .next s

/-! ## Memory windows -/

/-- R39, R41: a defined write to IMG stores the word; while BUSY it is dropped and sets REJ. -/
def State.writeImg (s : State) (a : Nat) (v : Word) : State :=
  if s.busy then s.setRej else { s with img := Memory.writeWord s.img a v }

/-- The byte a host read of OUT[i] obtains: the last completed job's byte below OUT_LEN while not BUSY, else a draw (R44, R45; log 22). -/
def State.readOutByte (s : State) (i : Nat) : Byte × State :=
  if s.busy ∨ s.outLen.toNat ≤ i then s.drawByte
  else
    match s.outByte i with
    | some b => (b, s)
    | none => s.drawByte

/-- R43, R47: the little-endian value of n bytes of OUT from index i. -/
def State.readOut (s : State) : Nat → Nat → Word × State
  | 0, _ => (0, s)
  | n + 1, i =>
    let r := s.readOutByte i
    let t := State.readOut r.2 n (i + 1)
    (r.1.setWidth 32 ||| (t.1 <<< 8), t.2)

/-! ## Accesses -/

/-- The value and the state after a defined MemRead(a, n) (R38, R39, R43). -/
def readValue (s : State) (n a : Nat) : Word × State :=
  match regionOf s.params a with
  | .reg => (regRead s a, s)
  | .img => s.readImg ((a - Config.imgBase) / 4)
  | .out => s.readOut n (a - Config.outBase)
  | .unmapped => (0, s)

/-- MemRead(a, n) (R10): its value and the state after it, or BusError(a). -/
def busRead (s : State) (n : Nat) (a : Addr) : Except Fault (Word × State) :=
  if readDefined s.params n a.toNat then .ok (readValue s n a.toNat) else .error (.busError a)

/-- The effect of a defined MemWrite(a, 4, v) (R38, R39). -/
def writeEffect (s : State) (a : Nat) (v : Word) : Host.Outcome State Fault Refusal :=
  match regionOf s.params a with
  | .reg => regWrite s a v
  | .img => .next (s.writeImg a v)
  | .out => .next s
  | .unmapped => .next s

/-- MemWrite(a, n, v) (R10): its effect, or BusError(a). -/
def busWrite (s : State) (n : Nat) (a : Addr) (v : Word) : Host.Outcome State Fault Refusal :=
  if writeDefined s.params n a.toNat then writeEffect s a.toNat v else .fault (.busError a)

/-- A host read, its value bound to dst. -/
def hostRead (s : State) (n : Nat) (a : Addr) (dst : Nat) : Host.Outcome State Fault Refusal :=
  match busRead s n a with
  | .ok r => .next (r.2.bind dst r.1)
  | .error f => .fault f

/-- `wait -> dst` of 30_encoding.md R68: one read of STATUS into dst, and the item stays in front while that read saw BUSY (log 13). -/
def hostWait (s : State) (dst : Nat) : Host.Outcome State Fault Refusal :=
  let t := s.bind dst s.status
  .next (if s.busy then t.setProg (.wait dst :: s.prog) else t)

/-- One item of the host's program, already taken off `prog`. -/
def performOp (s : State) (op : BusOp) : Host.Outcome State Fault Refusal :=
  match op with
  | .rd n a dst => hostRead s n a dst
  | .wr n a v => busWrite s n a v
  | .wait dst => hostWait s dst

/-- The host's move: its next access in program order (R51), or nothing when its program is at its end (log 2). -/
def hostMove (s : State) : Host.Outcome State Fault Refusal :=
  match s.prog with
  | [] => .next s
  | op :: rest => performOp (s.setProg rest) op

end Sys2Proof.Machine
end

