-- ==== Sys2Proof/Machine/Dither.lean ====
section
/-! DEFINITION. Step 2, error-diffusion dither (spec 42_dither.md R87 to R92). -/

namespace Sys2Proof.Machine

/-- R88: white iff the accumulated value reaches the threshold. -/
def isWhite (v : Int) : Bool := decide (Config.thresh ≤ v)

/-- R88: the quantised level, 255 for white and 0 for black. -/
def level (white : Bool) : Int := if white then 255 else 0

/-- R88, R89: Quantize, the colour and the quantisation error. -/
def quantize (v : Int) : Bool × Int := (isWhite v, v - level (isWhite v))

/-- R90: the share of error e sent with weight k. -/
def share (k e : Int) : Int := tdiv (k * e) 16

/-- R87: the accumulated value v of pixel (x, y) with gray value g. -/
def State.accumulate (s : State) (x y : Nat) (g : Byte) : Int :=
  (g.toNat : Int) + (ErrPlane.get s.errPlane y x).toInt

/-- R91: the four updates of Diffuse on an error plane; a share whose target lies outside is discarded (R92). -/
def ErrPlane.diffuse (p : ErrPlane) (W H x y : Nat) (e : Int) : ErrPlane :=
  let p1 := if x + 1 < W then ErrPlane.add p y (x + 1) (share Config.kRight e) else p
  let p2 := if y + 1 < H ∧ 1 ≤ x then ErrPlane.add p1 (y + 1) (x - 1) (share Config.kBelowLeft e) else p1
  let p3 := if y + 1 < H then ErrPlane.add p2 (y + 1) x (share Config.kBelow e) else p2
  if y + 1 < H ∧ x + 1 < W then ErrPlane.add p3 (y + 1) (x + 1) (share Config.kBelowRight e) else p3

/-- R91: Diffuse(x, y, e), with the latched width and height. -/
def State.diffuse (s : State) (x y : Nat) (e : Int) : State :=
  { s with errPlane := ErrPlane.diffuse s.errPlane s.jw.toNat s.jh.toNat x y e }

end Sys2Proof.Machine
end

