-- ==== Sys2Proof/Machine/Gray.lean ====
section
/-! DEFINITION. Step 1, grayscale reduction (spec 41_grayscale.md R79, R80). -/

namespace Sys2Proof.Machine

/-- R80: an 8-bit channel widened to 16 bits by byte replication, `c * 0x101`. -/
def widen (c : Nat) : Nat := c * 0x101

/-- R79: the weighted sum s, exact. -/
def graySum (p : Word) : Nat :=
  Config.weightR * widen (pixelR p) + Config.weightG * widen (pixelG p)
    + Config.weightB * widen (pixelB p) + 0x8000

/-- R79: Gray, the u8 luminance of one pixel word. -/
def gray (p : Word) : Byte := BitVec.ofNat 8 (graySum p >>> 24)

end Sys2Proof.Machine
end

