-- ==== Sys2Proof/Machine/Pack.lean ====
section
/-! DEFINITION. Step 3, bit packing (spec 43_pack.md R99 to R106). -/

namespace Sys2Proof.Machine

/-- R102: a black pixel is the bit INK_BIT, a white one 1 - INK_BIT. -/
def pixelBit (ink : BitVec 1) (white : Bool) : BitVec 1 := if white then 1 - ink else ink

/-- R103: PK | (b << (7 - PKN)), which puts the next pixel bit into the packer. -/
def shiftIn (pk : Byte) (pkn : Nat) (b : BitVec 1) : Byte := pk ||| (b.setWidth 8 <<< (7 - pkn))

/-- R103: whether the packer's byte is complete once it holds pkn pixels, the last of them (x, y). -/
def byteComplete (rowPad : Bool) (W H pkn x y : Nat) : Bool :=
  decide (pkn = 8) || (if rowPad then decide (x + 1 = W) else decide (y * W + x + 1 = W * H))

/-- R103: the index in OUT of the byte that holds pixel (x, y). -/
def byteIndex (rowPad : Bool) (W bpr x y : Nat) : Nat :=
  if rowPad then y * bpr + (x >>> 3) else (y * W + x) >>> 3

/-- R103: Pack(x, y, white). -/
def State.pack (s : State) (x y : Nat) (white : Bool) : State :=
  let pk := shiftIn s.pk s.pkn (pixelBit s.params.inkBit white)
  let pkn := s.pkn + 1
  if byteComplete s.params.rowPad s.jw.toNat s.jh.toNat pkn x y then
    (s.writeOut (byteIndex s.params.rowPad s.jw.toNat s.jbpr.toNat x y) pk).setPacker 0 0
  else s.setPacker pk pkn

end Sys2Proof.Machine
end

