-- ==== Sys2Proof/Machine/Job.lean ====
section
/-! DEFINITION. The job engine (spec 40_commands.md R75, R76). -/

namespace Sys2Proof.Machine

/-- R75: the cursor after pixel (x, y), in row-major order (R85). -/
def State.advance (s : State) (x y : Nat) : State :=
  if x + 1 < s.jw.toNat then s.setCursor y (x + 1) else s.setCursor (y + 1) 0

/-- R75: the stages of one job step on pixel (x, y), once its pixel word p is read. -/
def State.ditherPack (s : State) (x y : Nat) (p : Word) : State :=
  let q := quantize (s.accumulate x y (gray p))
  ((s.diffuse x y q.2).pack x y q.1).advance x y

/-- R75: the job step on the pixel under the cursor. -/
def State.jobStep (s : State) : State :=
  let r := s.readImg (s.cy.toNat * s.jw.toNat + s.cx.toNat)
  r.2.ditherPack s.cx.toNat s.cy.toNat r.1

/-- R76: the completion step. -/
def State.complete (s : State) : State := { s with outLen := s.jlen, jobState := .done }

/-- The engine's move: its one enabled step (R75, R76), or none outside a job (log 2) and beyond the last row (log 12). -/
def engineMove (s : State) : Host.Outcome State Fault Refusal :=
  if s.busy then
    if s.cy.toNat < s.jh.toNat then .next s.jobStep
    else if s.cy = s.jh then .next s.complete
    else .next s
  else .next s

end Sys2Proof.Machine
end

