-- ==== Sys2Proof/Machine/Step.lean ====
section
/-! DEFINITION. One step: the move of the agent whose turn it is (spec 20_memory.md R51; log 2). -/

namespace Sys2Proof.Machine

/-- One atomic transition of an agent (R49, R51). -/
def move (a : Agent) (s : State) : Host.Outcome State Fault Refusal :=
  match a with
  | .host => hostMove s
  | .engine => engineMove s

/-- Who moves where no turn is laid down: the engine while a job runs (R146), else the host. -/
def State.defaultAgent (s : State) : Agent := if s.busy then .engine else .host

/-- One step of the machine. -/
def step (s : State) : Host.Outcome State Fault Refusal :=
  match s.turns with
  | [] => move s.defaultAgent s
  | a :: rest => move a (s.setTurns rest)

/-- The state with one more access in front of the host's program, a write of the table's word to CTRL, and the host's turn next (log 1). -/
def State.withFetchWord (s : State) (nbits w : Nat) : State :=
  { s with
    prog := .wr 4 0 (tableWord nbits w) :: s.prog
    turns := .host :: s.turns }

end Sys2Proof.Machine
end

