-- ==== Sys2Proof/Machine/Construct.lean ====
section
/-! DEFINITION. Construction (spec 60_exceptions.md R127, 70_reset_and_hazards.md R138). -/

namespace Sys2Proof.Machine

/-- R127, R138: construction with given parameters leaves DPP in its power-on state; an invalid geometry gives no DPP.
Capacities outside the range of 00_scope.md R5 give none either (log 4). -/
def construct (r : Config.Raw) : Host.Outcome State Fault Refusal :=
  if hg : r.geometryOk = true then
    if hi : r.imgCapOk = true then
      if ho : r.outCapOk = true then .next (State.powerOn ⟨r, hg, hi, ho⟩)
      else .refused .capacityOutOfRange
    else .refused .capacityOutOfRange
  else .refused .configurationError

end Sys2Proof.Machine
end

