-- ==== Sys2Proof/Machine/HostProgram.lean ====
section
/-! DEFINITION. The host notation (spec 30_encoding.md R67) and its pseudo-instructions (R68), with exact numerals (00_scope.md R7). -/

namespace Sys2Proof.Machine

/-- R67: the four forms of one host access. -/
def wr32 (a : Addr) (v : Word) : BusOp := .wr 4 a v
def rd32 (a : Addr) (dst : Nat) : BusOp := .rd 4 a dst
def rd16 (a : Addr) (dst : Nat) : BusOp := .rd 2 a dst
def rd8 (a : Addr) (dst : Nat) : BusOp := .rd 1 a dst

/-- The 24-bit address a numeral denotes (00_scope.md R10); a larger numeral is no address of a host access (log 25). -/
def addrOf (n : Nat) : Option Addr := if n < 2 ^ 24 then some (BitVec.ofNat 24 n) else none

/-- The 32-bit value a numeral denotes (R10); a larger numeral is no value of a host write (log 25). -/
def valueOf (n : Nat) : Option Word := if n < 2 ^ 32 then some (BitVec.ofNat 32 n) else none

/-- R68: the pseudo-instructions, their operands the numerals as written. -/
inductive Pseudo where
  | nop
  | process
  | reset
  | setdim (W H : Nat)
  | pix (x y W v : Nat)
  | wait (dst : Nat)
  | display (W H : Nat) (pixels : List Nat) (dst : Nat)
  deriving DecidableEq, Repr

/-- R67: `wr32 A, V` with its numerals as written. -/
def writeLine (a v : Nat) : Option BusOp :=
  match addrOf a, valueOf v with
  | some a, some v => some (wr32 a v)
  | some _, none => none
  | none, _ => none

/-- The accesses of a list of lines, if every line has one. -/
def allLines : List (Option BusOp) → Option (List BusOp)
  | [] => some []
  | none :: _ => none
  | some op :: rest => (allLines rest).map (op :: ·)

/-- R68: `setdim W, H`. -/
def setdimLines (W H : Nat) : List (Option BusOp) := [writeLine 0x000008 W, writeLine 0x00000C H]

/-- R68: `pix x, y, W, V` writes word y*W + x of IMG, its address computed exactly (R7). -/
def pixLine (x y W v : Nat) : Option BusOp := writeLine (imgAddr (y * W + x)) v

/-- R68: `pix` for every pixel of a list in row-major order, from pixel k on. -/
def pixLines (W : Nat) : Nat → List Nat → List (Option BusOp)
  | _, [] => []
  | k, v :: vs => pixLine (k % W) (k / W) W v :: pixLines W (k + 1) vs

/-- R68: the lines of a pseudo-instruction, `display` taking as many pixels as it is given. -/
def Pseudo.lines : Pseudo → List (Option BusOp)
  | .nop => [writeLine 0x000000 0x00000000]
  | .process => [writeLine 0x000000 0x00000001]
  | .reset => [writeLine 0x000000 0x00000002]
  | .setdim W H => setdimLines W H
  | .pix x y W v => [pixLine x y W v]
  | .wait dst => [some (.wait dst)]
  | .display W H pixels dst =>
    setdimLines W H ++ pixLines W 0 pixels ++ [writeLine 0x000000 0x00000001, some (.wait dst)]

/-- R68: `display W, H, V0, ..., V(W*H-1)` names exactly W*H pixels. -/
def Pseudo.wellFormed : Pseudo → Bool
  | .display W H pixels _ => decide (pixels.length = W * H)
  | .nop => true
  | .process => true
  | .reset => true
  | .setdim _ _ => true
  | .pix _ _ _ _ => true
  | .wait _ => true

/-- R68: the expansion of a pseudo-instruction into host accesses; none where it is no line of the notation (log 25). -/
def Pseudo.expand (p : Pseudo) : Option (List BusOp) := if p.wellFormed then allLines p.lines else none

/-- R67: one line of a host program, an access or a pseudo-instruction. -/
inductive HostLine where
  | access (op : BusOp)
  | pseudo (p : Pseudo)
  deriving DecidableEq, Repr

/-- R67: the encoding of a host program is its list of bus transactions. -/
def encodeProgram : List HostLine → Option (List BusOp)
  | [] => some []
  | .access op :: rest => (encodeProgram rest).map (op :: ·)
  | .pseudo p :: rest =>
    match p.expand, encodeProgram rest with
    | some ops, some more => some (ops ++ more)
    | some _, none => none
    | none, _ => none

end Sys2Proof.Machine
end

