-- ==== Sys2Proof/Machine/Reference.lean ====
section
/-! DEFINITION. The whole-frame functions the spec defines a job's result by: GrayFrame and the composition (40_commands.md R77), DitherFrame (42_dither.md R96), PackFrame (43_pack.md R109), Unpack (R107), and the two-row error buffer (10_state.md R31). -/

namespace Sys2Proof.Machine

/-- R77: GrayFrame(I, W, H)[y][x]. -/
def grayFrame (I : Nat → Word) (W y x : Nat) : Nat := (gray (I (y * W + x))).toNat

/-! ## DitherFrame -/

/-- The error array E of R96, in exact integers. -/
abbrev ErrArray := List (List Int)

/-- E[y][x]. -/
def ErrArray.get (E : ErrArray) (y x : Nat) : Int := (E.getD y []).getD x 0

/-- E[y][x] <- E[y][x] + d. -/
def ErrArray.add (E : ErrArray) (y x : Nat) (d : Int) : ErrArray :=
  List.set E y ((E.getD y []).set x (ErrArray.get E y x + d))

/-- The four updates of R91 on E. -/
def ErrArray.diffuse (E : ErrArray) (W H x y : Nat) (e : Int) : ErrArray :=
  let E1 := if x + 1 < W then ErrArray.add E y (x + 1) (share Config.kRight e) else E
  let E2 := if y + 1 < H ∧ 1 ≤ x then ErrArray.add E1 (y + 1) (x - 1) (share Config.kBelowLeft e) else E1
  let E3 := if y + 1 < H then ErrArray.add E2 (y + 1) x (share Config.kBelow e) else E2
  if y + 1 < H ∧ x + 1 < W then ErrArray.add E3 (y + 1) (x + 1) (share Config.kBelowRight e) else E3

/-- What R96 carries from pixel to pixel: the error array and the pixels already quantised, in row-major order. -/
structure DitherState where
  errors : ErrArray
  pixels : List Bool
  deriving DecidableEq, Repr

/-- One pass of R96's inner loop, at pixel (x, y). -/
def ditherPixel (G : Nat → Nat → Nat) (W H x y : Nat) (d : DitherState) : DitherState :=
  let q := quantize ((G y x : Int) + ErrArray.get d.errors y x)
  { errors := ErrArray.diffuse d.errors W H x y q.2, pixels := d.pixels ++ [q.1] }

/-- R96 after its first n pixels, in row-major order: pixel n is in row n / W and column n mod W. -/
def ditherScan (G : Nat → Nat → Nat) (W H : Nat) : Nat → DitherState
  | 0 => { errors := List.replicate H (List.replicate W 0), pixels := [] }
  | n + 1 => ditherPixel G W H (n % W) (n / W) (ditherScan G W H n)

/-- R96: DitherFrame(G, W, H)[y][x], true for white. -/
def ditherFrame (G : Nat → Nat → Nat) (W H y x : Nat) : Bool :=
  (ditherScan G W H (W * H)).pixels.getD (y * W + x) false

/-! ## The two-row error buffer -/

/-- R31: the entries of rows cy and cy + 1 alone, and the pixels already quantised. -/
structure TwoRowState where
  current : List Int
  next : List Int
  pixels : List Bool
  deriving DecidableEq, Repr

/-- A row with entry x raised by d. -/
def addAt (row : List Int) (x : Nat) (d : Int) : List Int := row.set x (row.getD x 0 + d)

/-- R31, R91: one pixel with two row buffers; at the end of a row the next row becomes the current one and a zeroed row follows. -/
def twoRowPixel (G : Nat → Nat → Nat) (W H x y : Nat) (d : TwoRowState) : TwoRowState :=
  let q := quantize ((G y x : Int) + d.current.getD x 0)
  let c := if x + 1 < W then addAt d.current (x + 1) (share Config.kRight q.2) else d.current
  let n1 := if y + 1 < H ∧ 1 ≤ x then addAt d.next (x - 1) (share Config.kBelowLeft q.2) else d.next
  let n2 := if y + 1 < H then addAt n1 x (share Config.kBelow q.2) else n1
  let n3 := if y + 1 < H ∧ x + 1 < W then addAt n2 (x + 1) (share Config.kBelowRight q.2) else n2
  if x + 1 < W then { current := c, next := n3, pixels := d.pixels ++ [q.1] }
  else { current := n3, next := List.replicate W 0, pixels := d.pixels ++ [q.1] }

/-- R31: the scan with two row buffers after its first n pixels. -/
def twoRowScan (G : Nat → Nat → Nat) (W H : Nat) : Nat → TwoRowState
  | 0 => { current := List.replicate W 0, next := List.replicate W 0, pixels := [] }
  | n + 1 => twoRowPixel G W H (n % W) (n / W) (twoRowScan G W H n)

/-! ## PackFrame and Unpack -/

/-- R100, R106: the pixel, as (x, y), at lane L (0 the first) of byte i, where one exists. -/
def pixelAt (rowPad : Bool) (W H i L : Nat) : Option (Nat × Nat) :=
  if rowPad then
    let x := 8 * (i % ceil8 W) + L
    let y := i / ceil8 W
    if x < W ∧ y < H then some (x, y) else none
  else
    let k := 8 * i + L
    if k < W * H then some (k % W, k / W) else none

/-- R109: the bit of byte i in lane L: the pixel's bit, or 0 where no pixel maps there (R104). -/
def packBit (ink : BitVec 1) (rowPad : Bool) (Bin : Nat → Nat → Bool) (W H i L : Nat) : BitVec 1 :=
  match pixelAt rowPad W H i L with
  | some (x, y) => pixelBit ink (Bin y x)
  | none => 0

/-- R109: byte i of PackFrame(Bin, W, H); lane L is bit 7 - L. -/
def packByte (ink : BitVec 1) (rowPad : Bool) (Bin : Nat → Nat → Bool) (W H i : Nat) : Byte :=
  packBit ink rowPad Bin W H i 0 ++ packBit ink rowPad Bin W H i 1 ++ packBit ink rowPad Bin W H i 2
    ++ packBit ink rowPad Bin W H i 3 ++ packBit ink rowPad Bin W H i 4 ++ packBit ink rowPad Bin W H i 5
    ++ packBit ink rowPad Bin W H i 6 ++ packBit ink rowPad Bin W H i 7

/-- R109: PackFrame(Bin, W, H), a byte array of length JLEN. -/
def packFrame (ink : BitVec 1) (rowPad : Bool) (Bin : Nat → Nat → Bool) (W H : Nat) : List Byte :=
  (List.range (outputLength rowPad W H)).map (packByte ink rowPad Bin W H)

/-- R107: Unpack(B, W, H)[y][x], with row padding or, by the analogous law, without. -/
def unpack (ink : BitVec 1) (rowPad : Bool) (B : List Byte) (W y x : Nat) : Bool :=
  let i := byteIndex rowPad W (ceil8 W) x y
  let j := if rowPad then x % 8 else (y * W + x) % 8
  decide ((B.getD i 0).extractLsb' (7 - j) 1 ≠ ink)

/-- R77: the bytes a job on the image I must leave in OUT. -/
def frameBytes (ink : BitVec 1) (rowPad : Bool) (I : Nat → Word) (W H : Nat) : List Byte :=
  packFrame ink rowPad (ditherFrame (grayFrame I W) W H) W H

end Sys2Proof.Machine
end

