-- ==== Sys2Proof/Safety.lean ====
section
/-! DEFINITION. Runs, the command a step issues, host programs that cannot fault, and the invariant of the machine. -/

namespace Sys2Proof.Safety

open Sys2Proof.Machine

/-- k steps, stopping at the first fault or refusal. -/
def run : Nat → State → Host.Outcome State Fault Refusal
  | 0, s => .next s
  | k + 1, s =>
    match step s with
    | .next t => run k t
    | .fault f => .fault f
    | .refused r => .refused r

/-- The agent whose move the next step is. -/
def mover (s : State) : Agent :=
  match s.turns with
  | [] => s.defaultAgent
  | a :: _ => a

/-- How many of the first k steps are the engine's. -/
def engineTurns : Nat → State → Nat
  | 0, _ => 0
  | k + 1, s =>
    (if mover s = .engine then 1 else 0) +
      match step s with
      | .next t => engineTurns k t
      | .fault _ => 0
      | .refused _ => 0

/-- The command word the next step writes to CTRL, if that is what it does (40_commands.md R70). -/
def nextCommand (s : State) : Option Word :=
  match mover s, s.prog with
  | .host, .wr n a w :: _ => if n = 4 ∧ a = 0 then some w else none
  | _, _ => none

/-- An access the address map defines (20_memory.md R38, R39, R43, R46); `wait` reads STATUS. -/
def opDefined (p : Config.Params) (op : BusOp) : Bool :=
  match op with
  | .rd n a _ => readDefined p n a.toNat
  | .wr n a _ => writeDefined p n a.toNat
  | .wait _ => true

/-- A host program of defined accesses only. -/
def ProgramDefined (s : State) : Prop := ∀ op ∈ s.prog, opDefined s.params op = true

/-- An access that writes the command RESET to CTRL. -/
def opResets (op : BusOp) : Bool :=
  match op with
  | .wr _ a w => decide (a = 0) && decide (decodeWord w = .ok .reset)
  | .rd _ _ _ => false
  | .wait _ => false

/-! ## The invariant of a running job -/

/-- The pixels the job has still to process (40_commands.md R78). -/
def pixelsLeft (s : State) : Nat := s.jw.toNat * s.jh.toNat - (s.cy.toNat * s.jw.toNat + s.cx.toNat)

/-- The cursor is on a pixel of the image, or at the start of the row after the last (10_state.md R15). -/
def CursorInRange (s : State) : Prop :=
  (s.cy.toNat < s.jh.toNat ∧ s.cx.toNat < s.jw.toNat) ∨ (s.cy = s.jh ∧ s.cx = 0)

/-- Pixel (x, y) has been processed: it is before the cursor in row-major order (42_dither.md R85). -/
abbrev scanned (s : State) (y x : Nat) : Prop :=
  y < s.cy.toNat ∨ (y = s.cy.toNat ∧ x < s.cx.toNat)

/-- The most that the shares pixel (x, y) has received so far can sum to in magnitude: 55 from the left, 23 from above right,
39 from above and 7 from above left, the shares of an error of 127 (42_dither.md R90, R93). -/
def errReach (s : State) (y x : Nat) : Int :=
  (if 1 ≤ x ∧ scanned s y (x - 1) then 55 else 0)
    + (if 1 ≤ y ∧ x + 1 < s.jw.toNat ∧ scanned s (y - 1) (x + 1) then 23 else 0)
    + (if 1 ≤ y ∧ scanned s (y - 1) x then 39 else 0)
    + (if 1 ≤ y ∧ 1 ≤ x ∧ scanned s (y - 1) (x - 1) then 7 else 0)

/-- The pixel bits the packer holds (43_pack.md R103). -/
def packerCount (s : State) : Nat :=
  if s.params.rowPad then s.cx.toNat % 8
  else if s.cy = s.jh then 0
  else (s.cy.toNat * s.jw.toNat + s.cx.toNat) % 8

/-- The OUT bytes the job has written: those below this index (43_pack.md R105). -/
def bytesWritten (s : State) : Nat :=
  if s.params.rowPad then s.cy.toNat * s.jbpr.toNat + s.cx.toNat / 8
  else if s.cy = s.jh then s.jlen.toNat
  else (s.cy.toNat * s.jw.toNat + s.cx.toNat) / 8

/-- What holds of the job latch, the cursor, ERR, the packer and OUT while a job runs. -/
structure JobInv (s : State) : Prop where
  width : 0 < s.jw.toNat
  height : 0 < s.jh.toNat
  fitsImg : s.jw.toNat * s.jh.toNat ≤ s.params.imgCap
  rowBytes : s.jbpr.toNat = bytesPerRow s.params.rowPad s.jw.toNat
  length : s.jlen.toNat = outputLength s.params.rowPad s.jw.toNat s.jh.toNat
  fitsOut : s.jlen.toNat ≤ s.params.outCap
  cursor : CursorInRange s
  rows : s.errPlane.length = s.jh.toNat
  columns : ∀ row ∈ s.errPlane, row.length = s.jw.toNat
  errSmall : ∀ y < s.jh.toNat, ∀ x < s.jw.toNat,
    -errReach s y x ≤ (ErrPlane.get s.errPlane y x).toInt ∧ (ErrPlane.get s.errPlane y x).toInt ≤ errReach s y x
  packed : s.pkn = packerCount s
  packerClear : s.pk.toNat % 2 ^ (8 - s.pkn) = 0
  written : ∀ i < bytesWritten s, s.outByte i ≠ none

/-- The invariant of the machine. -/
structure Inv (s : State) : Prop where
  imgCanonical : Memory.wf s.img
  outCanonical : Memory.wf s.out
  imgRegion : ∀ c ∈ s.img, regionOf s.params c.1 = .img
  imgWhole : ∀ c ∈ s.img, Memory.readWord s.img (c.1 / 4 * 4) ≠ none
  outRegion : ∀ c ∈ s.out, regionOf s.params c.1 = .out
  errCode : s.err = .none ↔ s.jobState ≠ .error
  idleClear : s.jobState = .idle → s.rej = false ∧ s.outLen = 0
  busyLength : s.jobState = .busy → s.outLen = 0
  outFits : s.outLen.toNat ≤ s.params.outCap
  outListed : ∀ i < s.outLen.toNat, s.outByte i ≠ none
  job : s.jobState = .busy → JobInv s

end Sys2Proof.Safety
end

