-- ==== Sys2Proof/Certificates/Slice0/Obligations.lean ====
section
/-! DEFINITION. The statements about DPP for the provers: one definition each, from the numbered rules of spec/. -/

open Sys2Proof Sys2Proof.Machine Sys2Proof.Safety

/-! ## Encoding -/

/-- Command words written out from 30_encoding.md R58 to R61, and illegal ones, decode as they should. -/
def Obligations.TableWordsDecode : Prop :=
  decodeWord 0x00000000 = .ok .nop ∧ decodeWord 0x00000001 = .ok .process ∧ decodeWord 0x00000002 = .ok .reset
    ∧ decodeWord 0x00000003 = .error .opReserved ∧ decodeWord 0x000000FF = .error .opReserved
    ∧ decodeWord 0x00000100 = .error .rsvdNonZero ∧ decodeWord 0x80000001 = .error .rsvdNonZero
    ∧ decodeWord 0xFFFFFF02 = .error .rsvdNonZero

/-- Decoding the bytes of a well-formed command gives the command back and leaves the bytes after them. -/
def Obligations.EncodeThenDecode : Prop :=
  ∀ (i : Instr) (rest : List Byte), i.wellFormed = true →
    decodeBytes (encodeBytes i ++ rest) = .ok (i, rest) ∧ decodeTableWord 32 (encode i).toNat = some i

/-- The decoder accepts a word as a command exactly when it is that command's word (R59, R69): no word has two readings. -/
def Obligations.DecodeAcceptsOnlyEncodings : Prop :=
  ∀ (w : Word) (i : Instr), decodeWord w = .ok i ↔ w = encode i

/-- R61: which words are illegal, and what writing one does. -/
def Obligations.IllegalWordEffect : Prop :=
  ∀ (s : State) (w : Word), (rsvdField w ≠ 0 ∨ 0x03 ≤ (opField w).toNat) →
    (∃ r, decodeWord w = .error r)
      ∧ (¬ s.busy → busWrite s 4 0 w = .next { s with jobState := .error, err := .illegalCmd })
      ∧ (s.busy → busWrite s 4 0 w = .next { s with rej := true })

/-! ## Steps -/

/-- When the host's next access writes a command's word to CTRL and it is the host's turn, the step is the command's meaning
at the state with that turn and that access taken off (R51, R70).
Two clauses are the model's choices: that the host moves where no turn is laid down and no job runs (log 2), and that
`withFetchWord` places such an access and such a turn (log 1). -/
def Obligations.StepRunsDecodedCommand : Prop :=
  (∀ (s : State) (i : Instr) (w : Word) (rest : List BusOp) (ts : List Agent), decodeWord w = .ok i →
    s.prog = .wr 4 0 w :: rest → s.turns = .host :: ts → step s = exec i { s with prog := rest, turns := ts })
  ∧ (∀ (s : State) (i : Instr) (w : Word) (rest : List BusOp), decodeWord w = .ok i →
    s.prog = .wr 4 0 w :: rest → s.turns = [] → ¬ s.busy → step s = exec i { s with prog := rest })
  ∧ (∀ (s : State) (i : Instr) (w : Word), decodeWord w = .ok i → step (s.withFetchWord 32 w.toNat) = exec i s)

/-- Every interleaving of host accesses and job steps is admitted (20_memory.md R51): a laid-down turn is that agent's move.
Where none is laid down, the engine moves while a job runs and the host otherwise: the model's choice (log 2).
That an engine turn outside a job and a host turn with an empty program change nothing is the model's choice too (log 15). -/
def Obligations.EveryInterleavingIsAdmitted : Prop :=
  (∀ (s : State) (ts : List Agent), s.turns = .host :: ts → step s = hostMove { s with turns := ts })
  ∧ (∀ (s : State) (ts : List Agent), s.turns = .engine :: ts → step s = engineMove { s with turns := ts })
  ∧ (∀ s : State, s.turns = [] → s.busy → step s = engineMove s)
  ∧ (∀ s : State, s.turns = [] → ¬ s.busy → step s = hostMove s)
  ∧ (∀ s : State, ¬ s.busy → engineMove s = .next s)
  ∧ (∀ s : State, s.prog = [] → hostMove s = .next s)

/-- The host performs its accesses in program order (R51); a read binds its value, `wait` reads STATUS and stays in front
while that read sees BUSY (30_encoding.md R67, R68). -/
def Obligations.HostMovesInProgramOrder : Prop :=
  (∀ (s : State) (n : Nat) (a : Addr) (v : Word) (rest : List BusOp), s.prog = .wr n a v :: rest →
    hostMove s = busWrite { s with prog := rest } n a v)
  ∧ (∀ (s t : State) (n : Nat) (a : Addr) (dst : Nat) (v : Word) (rest : List BusOp), s.prog = .rd n a dst :: rest →
    busRead { s with prog := rest } n a = .ok (v, t) → hostMove s = .next { t with vars := (dst, v) :: s.vars })
  ∧ (∀ (s : State) (dst : Nat) (rest : List BusOp), s.prog = .wait dst :: rest → ¬ s.busy →
    hostMove s = .next { s with prog := rest, vars := (dst, s.status) :: s.vars })
  ∧ (∀ (s : State) (dst : Nat) (rest : List BusOp), s.prog = .wait dst :: rest → s.busy →
    hostMove s = .next { s with vars := (dst, s.status) :: s.vars })

/-- No step is refused, and a step faults only on a host access the address map does not define, with that access's address. -/
def Obligations.StepsStopOnlyOnBusErrors : Prop :=
  ∀ s : State, (∀ r, step s ≠ .refused r)
    ∧ ∀ f, step s = .fault f → mover s = .host ∧ ∃ op rest a, s.prog = op :: rest ∧ opDefined s.params op = false
        ∧ f = .busError a ∧ ((∃ n dst, op = .rd n a dst) ∨ (∃ n v, op = .wr n a v))

/-- A host program of defined accesses runs for any number of steps, whatever the interleaving. -/
def Obligations.DefinedProgramsNeverStop : Prop :=
  ∀ (k : Nat) (s : State), ProgramDefined s → ∃ t, run k s = .next t ∧ ProgramDefined t

/-! ## Commands -/

/-- R70: command dispatch of a word written to CTRL. -/
def Obligations.CtrlWriteDispatch : Prop :=
  ∀ (s : State) (w : Word),
    (s.busy →
      (decodeWord w = .ok .nop → busWrite s 4 0 w = .next s)
      ∧ (decodeWord w = .ok .reset → busWrite s 4 0 w = exec .reset s)
      ∧ (decodeWord w ≠ .ok .nop → decodeWord w ≠ .ok .reset → busWrite s 4 0 w = .next { s with rej := true }))
    ∧ (¬ s.busy →
      ((∃ r, decodeWord w = .error r) → busWrite s 4 0 w = .next { s with jobState := .error, err := .illegalCmd })
      ∧ ∀ i, decodeWord w = .ok i → busWrite s 4 0 w = exec i s)

/-- R71: PROCESS while BUSY sets REJ and has no other effect; nor has an illegal word. -/
def Obligations.BusyRejectsProcessAndIllegal : Prop :=
  ∀ s : State, s.busy →
    exec .process s = .next { s with rej := true }
      ∧ ∀ w, decodeWord w = .ok .process ∨ (∃ r, decodeWord w = .error r) → busWrite s 4 0 w = .next { s with rej := true }

/-- R72: NOP has no effect in any STATE, and its word is 0x00000000 alone. -/
def Obligations.NopHasNoEffect : Prop :=
  (∀ s : State, exec .nop s = .next s) ∧ encode .nop = 0x00000000 ∧ (∃ r, decodeWord 0x00000100 = .error r)

/-- R73: PROCESS while not BUSY, its two errors and an accepted job, with every product exact. -/
def Obligations.ProcessOutcome : Prop :=
  ∀ s : State, ¬ s.busy →
    let W := s.imgW.toNat
    let H := s.imgH.toNat
    let L := if s.params.rowPad then H * ((W + 7) / 8) else (W * H + 7) / 8
    (W = 0 ∨ H = 0 → exec .process s = .next { s with jobState := .error, err := .zeroSize, outLen := 0 })
    ∧ (W ≠ 0 → H ≠ 0 → s.params.imgCap < W * H ∨ s.params.outCap < L →
        exec .process s = .next { s with jobState := .error, err := .oversize, outLen := 0 })
    ∧ (W ≠ 0 → H ≠ 0 → W * H ≤ s.params.imgCap → L ≤ s.params.outCap →
        ∃ t, exec .process s = .next t
          ∧ t.outLen = 0 ∧ t.jw = s.imgW ∧ t.jh = s.imgH
          ∧ t.jbpr.toNat = (if s.params.rowPad then (W + 7) / 8 else 0) ∧ t.jlen.toNat = L
          ∧ t.errPlane.length = H ∧ (∀ row ∈ t.errPlane, row.length = W)
          ∧ (∀ y x, y < H → x < W → ErrPlane.get t.errPlane y x = 0)
          ∧ t.pk = 0 ∧ t.pkn = 0 ∧ t.cy = 0 ∧ t.cx = 0
          ∧ t.rej = false ∧ t.err = .none ∧ t.jobState = .busy
          ∧ t = { s with outLen := t.outLen, jw := t.jw, jh := t.jh, jbpr := t.jbpr, jlen := t.jlen,
                         errPlane := t.errPlane, pk := t.pk, pkn := t.pkn, cy := t.cy, cx := t.cx,
                         rej := t.rej, err := t.err, jobState := t.jobState })

/-- R74: RESET in every STATE; no OUT byte is valid after it and the job performs no further step. -/
def Obligations.ResetReturnsToIdle : Prop :=
  ∀ s : State, ∃ t, exec .reset s = .next t
    ∧ t.jobState = .idle ∧ t.rej = false ∧ t.err = .none ∧ t.outLen = 0 ∧ t.status = 0
    ∧ t.img = s.img ∧ t.imgW = s.imgW ∧ t.imgH = s.imgH ∧ t.params = s.params
    ∧ (∀ i, t.outByte i = none) ∧ engineMove t = .next t

/-- What the commands leave unchanged: all of them the registers IMG_W and IMG_H, the parameters, every byte of IMG and the host;
NOP everything; PROCESS every byte of memory, and outside an acceptance the whole hidden state;
RESET every byte below the OUT window. -/
def Obligations.CommandFrame : Prop :=
  ∀ (i : Instr) (s t : State), exec i s = .next t →
    (t.params = s.params ∧ t.imgW = s.imgW ∧ t.imgH = s.imgH ∧ t.prog = s.prog ∧ t.turns = s.turns ∧ t.vars = s.vars
      ∧ ∀ a, a < Config.outBase → t.memByte a = s.memByte a)
    ∧ (i = .nop → t = s)
    ∧ (i = .process → (∀ a, t.memByte a = s.memByte a) ∧ t.draws = s.draws
        ∧ (s.busy → t.jobState = s.jobState ∧ t.err = s.err ∧ t.outLen = s.outLen)
        ∧ (t.jobState = .error → t.rej = s.rej)
        ∧ (s.busy ∨ ¬ t.busy → t.jw = s.jw ∧ t.jh = s.jh ∧ t.jbpr = s.jbpr ∧ t.jlen = s.jlen ∧ t.cy = s.cy ∧ t.cx = s.cx
            ∧ t.errPlane = s.errPlane ∧ t.pk = s.pk ∧ t.pkn = s.pkn))

/-- R124: how the ERROR state is left: by the next command performed, and not by NOP. -/
def Obligations.ErrorExit : Prop :=
  ∀ s : State, s.jobState = .error →
    (∃ t, exec .process s = .next t ∧ (t.jobState = .busy ∨ t.jobState = .error))
    ∧ (∃ t, exec .reset s = .next t ∧ t.jobState = .idle)
    ∧ (∀ w, (∃ r, decodeWord w = .error r) → busWrite s 4 0 w = .next { s with err := .illegalCmd })
    ∧ exec .nop s = .next s

/-! ## Registers -/

/-- R19: the fields of STATUS as a host read returns them, its value at power-on, and that writes are ignored. -/
def Obligations.StatusRegister : Prop :=
  (∀ s : State, ∃ v : Word, busRead s 4 0x000004 = .ok (v, s)
    ∧ v.extractLsb' 0 2 = (match s.jobState with | .idle => 0 | .busy => 1 | .done => 2 | .error => 3)
    ∧ v.extractLsb' 2 1 = (if s.rej then 1 else 0)
    ∧ v.extractLsb' 3 5 = 0
    ∧ v.extractLsb' 8 8 = (match s.err with | .none => 0x00 | .zeroSize => 0x01 | .oversize => 0x02 | .illegalCmd => 0x04)
    ∧ v.extractLsb' 16 16 = 0)
  ∧ (∀ p, busRead (State.powerOn p) 4 0x000004 = .ok (0, State.powerOn p))
  ∧ (∀ (s : State) (v : Word), busWrite s 4 0x000004 v = .next s)

/-- R23, R24: IMG_W and IMG_H: a write stores v[15:0], while BUSY it also sets REJ; a read returns the value, bits [31:16] zero;
both are 0 at power-on, where PROCESS is refused with ZERO_SIZE. -/
def Obligations.DimensionRegisters : Prop :=
  (∀ (s : State) (v : Word), ¬ s.busy → busWrite s 4 0x000008 v = .next { s with imgW := v.extractLsb' 0 16 })
  ∧ (∀ (s : State) (v : Word), s.busy →
      busWrite s 4 0x000008 v = .next { s with imgW := v.extractLsb' 0 16, rej := true })
  ∧ (∀ (s : State) (v : Word), ¬ s.busy → busWrite s 4 0x00000C v = .next { s with imgH := v.extractLsb' 0 16 })
  ∧ (∀ (s : State) (v : Word), s.busy →
      busWrite s 4 0x00000C v = .next { s with imgH := v.extractLsb' 0 16, rej := true })
  ∧ (∀ s : State, busRead s 4 0x000008 = .ok ((0 : BitVec 16) ++ s.imgW, s)
      ∧ busRead s 4 0x00000C = .ok ((0 : BitVec 16) ++ s.imgH, s))
  ∧ (∀ p, (State.powerOn p).imgW = 0 ∧ (State.powerOn p).imgH = 0
      ∧ exec .process (State.powerOn p) = .next { State.powerOn p with jobState := .error, err := .zeroSize, outLen := 0 })

/-- R25, R26: PANEL_W and PANEL_H read as the construction constants and ignore writes; no step changes them. -/
def Obligations.PanelRegisters : Prop :=
  (∀ s : State, busRead s 4 0x000010 = .ok (BitVec.ofNat 32 s.params.panelW, s)
      ∧ busRead s 4 0x000014 = .ok (BitVec.ofNat 32 s.params.panelH, s))
  ∧ (∀ (s : State) (v : Word), busWrite s 4 0x000010 v = .next s ∧ busWrite s 4 0x000014 v = .next s)
  ∧ (∀ p, (State.powerOn p).params = p) ∧ (∀ s t : State, step s = .next t → t.params = s.params)

/-- R27: OUT_LEN: read-only, 0 at power-on, zeroed by a PROCESS that is not rejected and by RESET, set to JLEN at completion,
and changed by nothing else. -/
def Obligations.OutLenRegister : Prop :=
  (∀ s : State, busRead s 4 0x000018 = .ok (s.outLen, s))
  ∧ (∀ (s : State) (v : Word), busWrite s 4 0x000018 v = .next s)
  ∧ (∀ p, (State.powerOn p).outLen = 0)
  ∧ (∀ s t : State, ¬ s.busy → exec .process s = .next t → t.outLen = 0)
  ∧ (∀ s t : State, exec .reset s = .next t → t.outLen = 0)
  ∧ (∀ s t : State, s.busy → s.cy = s.jh → engineMove s = .next t → t.outLen = s.jlen)
  ∧ (∀ s t : State, step s = .next t → t.outLen ≠ s.outLen →
      (∃ w, nextCommand s = some w ∧ ((decodeWord w = .ok .process ∧ ¬ s.busy) ∨ decodeWord w = .ok .reset))
      ∨ (mover s = .engine ∧ s.busy ∧ s.cy = s.jh))

/-- R28: the reserved offsets read as 0 and ignore writes. -/
def Obligations.ReservedOffsets : Prop :=
  ∀ (s : State) (a : Addr), 0x00001C ≤ a.toNat → a.toNat ≤ 0x00003C → a.toNat % 4 = 0 →
    busRead s 4 a = .ok (0, s) ∧ ∀ v, busWrite s 4 a v = .next s

/-- R18: a read of CTRL returns 0 and has no effect; a write issues the command at once; a non-zero RSVD field makes it illegal. -/
def Obligations.CtrlRegister : Prop :=
  (∀ s : State, busRead s 4 0x000000 = .ok (0, s) ∧ ∀ w i, decodeWord w = .ok i → busWrite s 4 0x000000 w = exec i s)
  ∧ ∀ w, w.extractLsb' 8 24 ≠ 0 → ∃ r, decodeWord w = .error r

/-- R20: only an accepted PROCESS, RESET, the completion step and an error write STATE. -/
def Obligations.StateWriters : Prop :=
  ∀ s t : State, step s = .next t → t.jobState ≠ s.jobState →
    (t.jobState = .busy ∧ ¬ s.busy ∧ ∃ w, nextCommand s = some w ∧ decodeWord w = .ok .process)
    ∨ (t.jobState = .idle ∧ ∃ w, nextCommand s = some w ∧ decodeWord w = .ok .reset)
    ∨ (t.jobState = .done ∧ s.busy ∧ mover s = .engine ∧ s.cy = s.jh)
    ∨ (t.jobState = .error ∧ ¬ s.busy ∧ ∃ w, nextCommand s = some w
        ∧ (decodeWord w = .ok .process ∨ ∃ r, decodeWord w = .error r))

/-- R21: REJ is set by a step exactly when, while BUSY, the host writes PROCESS or an illegal word to CTRL, or writes IMG_W, IMG_H or IMG;
setting it changes no other status, no job register and no memory; it is cleared only by an accepted PROCESS and by RESET. -/
def Obligations.RejRule : Prop :=
  (∀ (s t : State) (n : Nat) (a : Addr) (v : Word) (rest : List BusOp), step s = .next t → mover s = .host → s.busy →
    s.prog = .wr n a v :: rest →
    ((a = 0 ∧ (decodeWord v = .ok .process ∨ ∃ r, decodeWord v = .error r)) ∨ a = 0x000008 ∨ a = 0x00000C
      ∨ regionOf s.params a.toNat = .img) → t.rej = true)
  ∧ (∀ s t : State, step s = .next t → s.rej = false → t.rej = true →
    s.busy ∧ mover s = .host
      ∧ (∃ n a v rest, s.prog = .wr n a v :: rest
        ∧ ((a = 0 ∧ (decodeWord v = .ok .process ∨ ∃ r, decodeWord v = .error r)) ∨ a = 0x000008 ∨ a = 0x00000C
          ∨ regionOf s.params a.toNat = .img))
      ∧ t = { s with rej := true, imgW := t.imgW, imgH := t.imgH, prog := t.prog, turns := t.turns })
  ∧ (∀ s t : State, step s = .next t → s.rej = true → t.rej = false →
    ∃ w, nextCommand s = some w ∧ ((decodeWord w = .ok .process ∧ t.busy) ∨ decodeWord w = .ok .reset))
  ∧ (∀ p, (State.powerOn p).rej = false)

/-- R22: while STATE is not ERROR, ERR reads 0x00; in ERROR it holds a code. Every step keeps this. -/
def Obligations.ErrCodeOnlyInError : Prop :=
  ∀ s t : State, (s.err = .none ↔ s.jobState ≠ .error) → step s = .next t → (t.err = .none ↔ t.jobState ≠ .error)

/-! ## Memory and host accesses -/

/-- R38, R39, R43, R46, R126: exactly which accesses are defined; every other one is BusError with its address. -/
def Obligations.DefinedAccesses : Prop :=
  ∀ (s : State) (n : Nat) (a : Addr) (v : Word),
    let word : Prop := n = 4 ∧ a.toNat % 4 = 0
      ∧ (a.toNat ≤ 0x00003C ∨ (0x400000 ≤ a.toNat ∧ a.toNat < 0x400000 + 4 * s.params.imgCap))
    let outRead : Prop := (n = 1 ∨ n = 2 ∨ n = 4) ∧ a.toNat % n = 0
      ∧ 0x800000 ≤ a.toNat ∧ a.toNat + n ≤ 0x800000 + s.params.outCap
    (word ∨ outRead → ∃ r, busRead s n a = .ok r)
    ∧ (¬ (word ∨ outRead) → busRead s n a = .error (.busError a))
    ∧ (word → ∃ t, busWrite s n a v = .next t)
    ∧ (¬ word → busWrite s n a v = .fault (.busError a))

/-- R39, R42: a defined write to IMG while not BUSY stores the word, and nothing else changes; reading it in any STATE returns it.
A host read of any IMG word, in any STATE, returns the word, or a fresh free value (the model's form of a draw, log 5) where it is
still unwritten, and uses up nothing else. -/
def Obligations.ImgWriteThenRead : Prop :=
  (∀ (s : State) (k : Nat) (a : Addr), k < s.params.imgCap → a.toNat = 0x400000 + 4 * k →
    (∀ w, s.imgWord k = some w → busRead s 4 a = .ok (w, s))
    ∧ (s.imgWord k = none → busRead s 4 a = .ok (Config.freeWord s.draws, { s with draws := s.draws + 1 })))
  ∧ ∀ (s : State) (k : Nat) (a : Addr) (v : Word), k < s.params.imgCap → a.toNat = 0x400000 + 4 * k → ¬ s.busy →
    ∃ t, busWrite s 4 a v = .next t
      ∧ t.imgWord k = some v
      ∧ (∀ b, b < a.toNat ∨ a.toNat + 4 ≤ b → t.memByte b = s.memByte b)
      ∧ (∀ j < 4, t.memByte (a.toNat + j) = some (v.extractLsb' (8 * j) 8))
      ∧ t = { s with img := t.img }
      ∧ ∀ u : State, u.params = t.params → u.img = t.img → busRead u 4 a = .ok (v, u)

/-- R41: a defined write to IMG while BUSY is dropped and sets REJ; a malformed one is still BusError. -/
def Obligations.ImgWriteWhileBusyDropped : Prop :=
  ∀ (s : State) (a : Addr) (v : Word), s.busy → regionOf s.params a.toNat = .img →
    (a.toNat % 4 = 0 → busWrite s 4 a v = .next { s with rej := true })
    ∧ (a.toNat % 4 ≠ 0 → busWrite s 4 a v = .fault (.busError a))
    ∧ ∀ n, n ≠ 4 → busWrite s n a v = .fault (.busError a)

/-- R40, R41: no step taken while a job runs changes IMG, so the job's input is the image as it was accepted. -/
def Obligations.ImageFixedWhileBusy : Prop :=
  ∀ s t : State, s.busy → step s = .next t → t.img = s.img

/-- R29, R142: while a job runs its latch keeps its values, whatever the host writes to IMG_W and IMG_H. -/
def Obligations.LatchFixedWhileBusy : Prop :=
  ∀ s t : State, s.busy → step s = .next t → t.busy →
    t.jw = s.jw ∧ t.jh = s.jh ∧ t.jbpr = s.jbpr ∧ t.jlen = s.jlen

/-- R43, R44, R45, R47: a defined read of n bytes of OUT, little-endian: its first m bytes are the job's (those below OUT_LEN while not BUSY,
none while BUSY), every further byte is a fresh free value (the model's free values, log 5), and nothing but those is used up. -/
def Obligations.OutReadBytes : Prop :=
  ∀ (s : State) (n i : Nat) (a : Addr) (b : Nat → Byte), (n = 1 ∨ n = 2 ∨ n = 4) → i % n = 0 →
    a.toNat = 0x800000 + i → i + n ≤ s.params.outCap →
    let m := if s.busy then 0 else s.outLen.toNat - i
    (∀ j < n, j < m → s.outByte (i + j) = some (b j)) →
    ∃ v : Word, busRead s n a = .ok (v, { s with draws := s.draws + (n - m) })
      ∧ (∀ j < n, v.extractLsb' (8 * j) 8 = if j < m then b j else Config.freeByte (s.draws + (j - m)))
      ∧ (∀ j, n ≤ j → j < 4 → v.extractLsb' (8 * j) 8 = 0)

/-- R50: no host read has a side effect: it uses free values and changes nothing else, and a read that used none
returns the same value again. -/
def Obligations.ReadsHaveNoSideEffect : Prop :=
  ∀ (s t : State) (n : Nat) (a : Addr) (v : Word), busRead s n a = .ok (v, t) →
    t = { s with draws := t.draws } ∧ s.draws ≤ t.draws ∧ (t.draws = s.draws → busRead t n a = .ok (v, t))

/-- R45, R53, R117: from every state that is not BUSY (DONE, or ERROR after it), a step that issues neither PROCESS nor RESET leaves
OUT_LEN and every OUT byte as they are, and no job runs after it; while STATE stays DONE the output stream is the same. -/
def Obligations.StreamStableAfterDone : Prop :=
  ∀ s t : State, ¬ s.busy → step s = .next t →
    (∀ w, nextCommand s = some w → decodeWord w ≠ .ok .process ∧ decodeWord w ≠ .ok .reset) →
    (t.jobState = s.jobState ∨ t.jobState = .error) ∧ t.outLen = s.outLen ∧ (∀ i, t.outByte i = s.outByte i)
      ∧ (s.jobState = .done → t.jobState = .done → t.outputStream = s.outputStream)

/-! ## The stages -/

/-- R83: the laws of Gray: neutral pixels keep their value, raising a channel never lowers the result, the sum fits a u32. -/
def Obligations.GrayLaws : Prop :=
  (∀ p : Word, 0 ≤ (gray p).toNat ∧ (gray p).toNat ≤ 255)
  ∧ (∀ c a : Byte, gray (a ++ c ++ c ++ c) = c)
  ∧ (∀ p q : Word, (p.extractLsb' 0 8).toNat ≤ (q.extractLsb' 0 8).toNat →
      (p.extractLsb' 8 8).toNat ≤ (q.extractLsb' 8 8).toNat →
      (p.extractLsb' 16 8).toNat ≤ (q.extractLsb' 16 8).toNat → (gray p).toNat ≤ (gray q).toNat)
  ∧ (∀ p : Word, graySum p ≤ 4294934528 ∧ 4294934528 < 2 ^ 32)

/-- R81: pixel words that differ only in bits [31:24] have the same gray value. -/
def Obligations.GrayIgnoresAlpha : Prop :=
  ∀ (a a' : Byte) (rgb : BitVec 24), gray (a ++ rgb) = gray (a' ++ rgb)

/-- R88, R89: Quantize on its whole range: the colour, the error and the error's bound. -/
def Obligations.QuantizeRule : Prop :=
  ∀ v : Int, -127 ≤ v → v ≤ 382 →
    ((quantize v).1 = true ↔ 128 ≤ v) ∧ (quantize v).2 = v - (if 128 ≤ v then 255 else 0)
      ∧ -127 ≤ (quantize v).2 ∧ (quantize v).2 ≤ 127

/-- R90: shares truncate toward zero and symmetrically; the four sum to at most |e| and lose at most 3. -/
def Obligations.ShareLaws : Prop :=
  (∀ k e : Int, 0 ≤ k → 0 ≤ e → share k e = k * e / 16)
  ∧ (∀ k e : Int, share k (-e) = -share k e)
  ∧ (∀ e : Int, (share 7 e + share 3 e + share 5 e + share 1 e).natAbs ≤ e.natAbs
      ∧ (e - (share 7 e + share 3 e + share 5 e + share 1 e)).natAbs ≤ 3)
  ∧ (share 7 127 = 55 ∧ share 3 127 = 23 ∧ share 5 127 = 39 ∧ share 1 127 = 7)
  ∧ (share 7 (-127) = -55 ∧ share 3 (-127) = -23 ∧ share 5 (-127) = -39 ∧ share 1 (-127) = -7)
  ∧ (share 7 15 = 6 ∧ share 3 15 = 2 ∧ share 5 15 = 4 ∧ share 1 15 = 0)
  ∧ (share 7 (-15) = -6 ∧ share 3 (-15) = -2 ∧ share 5 (-15) = -4 ∧ share 1 (-15) = 0)
  ∧ (share 7 16 = 7 ∧ share 3 16 = 3 ∧ share 5 16 = 5 ∧ share 1 16 = 1)
  ∧ (share 7 (-1) = 0 ∧ share 3 (-1) = 0 ∧ share 5 (-1) = 0 ∧ share 1 (-1) = 0)

/-- R91, R92: Diffuse adds its four shares to the right, below-left, below and below-right entries where they lie inside the image,
changes no other entry, and discards the rest. -/
def Obligations.DiffuseRule : Prop :=
  ∀ (p : ErrPlane) (W H x y : Nat) (e : Int), p.length = H → (∀ row ∈ p, row.length = W) → x < W → y < H →
    -127 ≤ e → e ≤ 127 →
    (∀ y' x', -16384 ≤ (ErrPlane.get p y' x').toInt ∧ (ErrPlane.get p y' x').toInt ≤ 16383) →
    (ErrPlane.diffuse p W H x y e).length = H ∧ (∀ row ∈ ErrPlane.diffuse p W H x y e, row.length = W)
    ∧ ∀ y' x', y' < H → x' < W →
      (ErrPlane.get (ErrPlane.diffuse p W H x y e) y' x').toInt = (ErrPlane.get p y' x').toInt
        + (if y' = y ∧ x' = x + 1 then tdiv (7 * e) 16
           else if y' = y + 1 ∧ x' + 1 = x then tdiv (3 * e) 16
           else if y' = y + 1 ∧ x' = x then tdiv (5 * e) 16
           else if y' = y + 1 ∧ x' = x + 1 then tdiv (1 * e) 16
           else 0)

/-- R101: the output length in both packing modes. -/
def Obligations.OutputLengthRule : Prop :=
  ∀ W H : Nat, outputLength true W H = H * ((W + 7) / 8) ∧ outputLength false W H = (W * H + 7) / 8
    ∧ bytesPerRow true W = (W + 7) / 8
    ∧ (W % 8 = 0 → outputLength true W H = W * H / 8 ∧ outputLength false W H = W * H / 8)

/-- R100, R104, R109: where each pixel's bit stands in PackFrame, with its polarity (R102), and that padding bits are 0;
the same without row padding, by stream index. -/
def Obligations.PackFrameBits : Prop :=
  ∀ (ink : BitVec 1) (Bin : Nat → Nat → Bool) (W H : Nat),
    ((packFrame ink true Bin W H).length = H * ((W + 7) / 8)
      ∧ (∀ x y, x < W → y < H →
          ((packFrame ink true Bin W H).getD (y * ((W + 7) / 8) + x / 8) 0).extractLsb' (7 - x % 8) 1
            = if Bin y x then 1 - ink else ink)
      ∧ (∀ y L, y < H → W % 8 ≠ 0 → W % 8 ≤ L → L < 8 →
          ((packFrame ink true Bin W H).getD (y * ((W + 7) / 8) + W / 8) 0).extractLsb' (7 - L) 1 = 0))
    ∧ ((packFrame ink false Bin W H).length = (W * H + 7) / 8
      ∧ (∀ x y, x < W → y < H →
          ((packFrame ink false Bin W H).getD ((y * W + x) / 8) 0).extractLsb' (7 - (y * W + x) % 8) 1
            = if Bin y x then 1 - ink else ink)
      ∧ (∀ L, W * H % 8 ≠ 0 → W * H % 8 ≤ L → L < 8 →
          ((packFrame ink false Bin W H).getD (W * H / 8) 0).extractLsb' (7 - L) 1 = 0))

/-- R107: unpacking a packed frame gives the raster back, in both packing modes and both polarities. -/
def Obligations.UnpackInvertsPack : Prop :=
  ∀ (ink : BitVec 1) (rowPad : Bool) (Bin : Nat → Nat → Bool) (W H x y : Nat), x < W → y < H →
    unpack ink rowPad (packFrame ink rowPad Bin W H) W y x = Bin y x

/-- R106: for a width that is a multiple of 8 the two packing modes give identical bytes. -/
def Obligations.PackModesAgree : Prop :=
  ∀ (ink : BitVec 1) (Bin : Nat → Nat → Bool) (W H : Nat), W % 8 = 0 →
    packFrame ink true Bin W H = packFrame ink false Bin W H

/-- R97: v = 0 and v = 255 leave no error, so an image of pure levels dithers to its own thresholded raster, with no diffusion. -/
def Obligations.PureLevelsPassUnchanged : Prop :=
  quantize 0 = (false, 0) ∧ quantize 255 = (true, 0)
  ∧ ∀ (G : Nat → Nat → Nat) (W H : Nat), (∀ y x, y < H → x < W → G y x = 0 ∨ G y x = 255) →
    (∀ y x, y < H → x < W → ditherFrame G W H y x = decide (G y x = 255))
    ∧ ∀ n ≤ W * H, (ditherScan G W H n).errors = List.replicate H (List.replicate W 0)

/-- R31: two row buffers give the same pixels as the full error plane, after any number of pixels of any image. -/
def Obligations.TwoRowBuffersSuffice : Prop :=
  ∀ (G : Nat → Nat → Nat) (W H n : Nat), n ≤ W * H → (twoRowScan G W H n).pixels = (ditherScan G W H n).pixels

/-! ## The job engine -/

/-- R75: the job step on the pixel under the cursor: its word p is IMG's, or a fresh free value where that is unwritten (R42). -/
def Obligations.JobStepEffect : Prop :=
  ∀ (s : State) (p : Word) (d : Nat),
    let y := s.cy.toNat
    let x := s.cx.toNat
    let W := s.jw.toNat
    let H := s.jh.toNat
    let v : Int := (gray p).toNat + (ErrPlane.get s.errPlane y x).toInt
    let bit : BitVec 1 := if 128 ≤ v then 1 - s.params.inkBit else s.params.inkBit
    let pk : Byte := s.pk ||| (bit.setWidth 8 <<< (7 - s.pkn))
    let last : Prop := s.pkn + 1 = 8 ∨ (if s.params.rowPad then x + 1 = W else y * W + x + 1 = W * H)
    let i := if s.params.rowPad then y * s.jbpr.toNat + x / 8 else (y * W + x) / 8
    s.busy → y < H → x < W →
    ((s.imgWord (y * W + x) = some p ∧ d = s.draws)
      ∨ (s.imgWord (y * W + x) = none ∧ p = Config.freeWord s.draws ∧ d = s.draws + 1)) →
    ∃ t, engineMove s = .next t
      ∧ t.errPlane = ErrPlane.diffuse s.errPlane W H x y (if 128 ≤ v then v - 255 else v)
      ∧ (last → t.pk = 0 ∧ t.pkn = 0 ∧ t.memByte (0x800000 + i) = some pk
          ∧ ∀ a, a ≠ 0x800000 + i → t.memByte a = s.memByte a)
      ∧ (¬ last → t.pk = pk ∧ t.pkn = s.pkn + 1 ∧ ∀ a, t.memByte a = s.memByte a)
      ∧ (x + 1 < W → t.cy.toNat = y ∧ t.cx.toNat = x + 1)
      ∧ (x + 1 = W → t.cy.toNat = y + 1 ∧ t.cx.toNat = 0)
      ∧ t = { s with errPlane := t.errPlane, pk := t.pk, pkn := t.pkn, out := t.out, cy := t.cy, cx := t.cx, draws := d }

/-- R76: the completion step; after it the engine has no enabled step (an idle turn changes nothing, log 15), and under the invariant
every OUT byte below JLEN has been written by then.
That completion leaves the job latch, the cursor, ERR and the packer as they stand is the model's choice (log 21). -/
def Obligations.CompletionStep : Prop :=
  ∀ s : State, s.busy → s.cy = s.jh →
    engineMove s = .next { s with outLen := s.jlen, jobState := .done }
    ∧ engineMove { s with outLen := s.jlen, jobState := .done } = .next { s with outLen := s.jlen, jobState := .done }
    ∧ (Inv s → ∀ i < s.jlen.toNat, s.outByte i ≠ none)

/-- R105: under the invariant a job step writes at most one OUT byte, the next one in increasing order, always below JLEN;
at the end of the image all of them have been written. -/
def Obligations.OutBytesWrittenInOrder : Prop :=
  ∀ s : State, Inv s → s.busy →
    (∀ t, s.cy.toNat < s.jh.toNat → engineMove s = .next t →
      ((∀ i, t.outByte i = s.outByte i) ∧ bytesWritten t = bytesWritten s)
      ∨ (bytesWritten s < s.jlen.toNat ∧ bytesWritten t = bytesWritten s + 1 ∧ t.outByte (bytesWritten s) ≠ none
          ∧ ∀ i, i ≠ bytesWritten s → t.outByte i = s.outByte i))
    ∧ (s.cy = s.jh → bytesWritten s = s.jlen.toNat)

/-- R93: under the invariant every ERR entry of a running job is in -127..127, and so are v and e of the pixel under the cursor
in their ranges. -/
def Obligations.ErrorBounds : Prop :=
  ∀ s : State, Inv s → s.busy →
    (∀ y x, y < s.jh.toNat → x < s.jw.toNat →
      -127 ≤ (ErrPlane.get s.errPlane y x).toInt ∧ (ErrPlane.get s.errPlane y x).toInt ≤ 127)
    ∧ ∀ g : Byte, s.cy.toNat < s.jh.toNat →
      -127 ≤ s.accumulate s.cx.toNat s.cy.toNat g ∧ s.accumulate s.cx.toNat s.cy.toNat g ≤ 382
      ∧ -127 ≤ (quantize (s.accumulate s.cx.toNat s.cy.toNat g)).2
      ∧ (quantize (s.accumulate s.cx.toNat s.cy.toNat g)).2 ≤ 127

/-! ## Power-on and construction -/

/-- R136: the power-on state. -/
def Obligations.PowerOnState : Prop :=
  ∀ p : Config.Params,
    let s := State.powerOn p
    s.status = 0 ∧ s.jobState = .idle ∧ s.rej = false ∧ s.err = .none ∧ s.imgW = 0 ∧ s.imgH = 0 ∧ s.outLen = 0
    ∧ busRead s 4 0x000010 = .ok (BitVec.ofNat 32 p.panelW, s) ∧ busRead s 4 0x000014 = .ok (BitVec.ofNat 32 p.panelH, s)
    ∧ (∀ k, s.imgWord k = none) ∧ (∀ i, s.outByte i = none) ∧ engineMove s = .next s

/-- R127: an invalid geometry gives no DPP, and the configuration type admits none.
R138: a valid one gives the power-on state, where its capacities are in the range of R5, taken as the model takes it (log 4). -/
def Obligations.ConstructionChecksGeometry : Prop :=
  ∀ r : Config.Raw,
    let valid : Prop := 1 ≤ r.panelW ∧ r.panelW ≤ 65535 ∧ 1 ≤ r.panelH ∧ r.panelH ≤ 65535 ∧ r.panelW * r.panelH % 8 = 0
    (¬ valid → construct r = .refused .configurationError)
    ∧ (valid → r.panelW * r.panelH ≤ r.imgCap → r.imgCap ≤ 2 ^ 20 →
        r.panelH * ((r.panelW + 7) / 8) ≤ r.outCap → r.outCap ≤ 2 ^ 22 →
        ∃ p : Config.Params, p.toRaw = r ∧ construct r = .next (State.powerOn p))
    ∧ ∀ p : Config.Params, p.toRaw = r → valid

/-! ## Headline results -/

/-- The invariant holds at power-on, whatever the construction parameters. -/
def Obligations.InvAtPowerOn : Prop :=
  (∀ p : Config.Params, Inv (State.powerOn p)) ∧ Inv State.reset

/-- Every step keeps the invariant: memory canonical and inside its regions, STATUS consistent, OUT listed up to OUT_LEN,
and of a running job its latch, cursor, error bounds, packer and written bytes. -/
def Obligations.StepKeepsInv : Prop :=
  ∀ s t : State, Inv s → step s = .next t → Inv t

/-- R77: whatever host accesses are interleaved with an accepted job, when it completes OUT holds
PackFrame(DitherFrame(GrayFrame(I))), I being the image as it was accepted (where a word was unwritten, some word). -/
def Obligations.JobComputesReferenceFrame : Prop :=
  ∀ (s s1 t : State) (k : Nat), ¬ s.busy → exec .process s = .next s1 →
    (∀ j < k, ∃ u, run j s1 = .next u ∧ u.busy) → run k s1 = .next t → t.jobState = .done →
    ∃ I : Nat → Word,
      (∀ n w, n < s.imgW.toNat * s.imgH.toNat → s.imgWord n = some w → I n = w)
      ∧ t.outputStream = some (frameBytes s.params.inkBit s.params.rowPad I s.imgW.toNat s.imgH.toNat)
      ∧ t.outLen.toNat = outputLength s.params.rowPad s.imgW.toNat s.imgH.toNat

/-- R78: whatever host accesses are interleaved with it, as long as no RESET is, an accepted job is BUSY for exactly JW*JH of the
engine's turns, each one job step that moves the cursor one pixel on, and the engine's next turn completes it; a host access other
than RESET leaves it BUSY.
The last clause is the run on which no turn is laid down, where the engine moves at every step by the model's choice (log 2). -/
def Obligations.JobTakesExactlyItsSteps : Prop :=
  (∀ (s s1 u : State) (k : Nat), ¬ s.busy → exec .process s = .next s1 →
    (∀ j ≤ k, ∃ v, run j s1 = .next v ∧ v.busy) → run k s1 = .next u →
    let N := s.imgW.toNat * s.imgH.toNat
    let n := engineTurns k s1
    n ≤ N ∧ u.cy.toNat * u.jw.toNat + u.cx.toNat = n ∧ (u.cy = u.jh ↔ n = N)
    ∧ (mover u = .engine → ∃ t, step u = .next t
        ∧ (n < N → t.busy)
        ∧ (n = N → t.jobState = .done ∧ t.outLen.toNat = outputLength s.params.rowPad s.imgW.toNat s.imgH.toNat))
    ∧ (mover u = .host → ∀ t, step u = .next t → (∀ w, nextCommand u = some w → decodeWord w ≠ .ok .reset) → t.busy))
  ∧ ∀ s s1 : State, ¬ s.busy → exec .process s = .next s1 → s1.busy → s1.turns = [] →
    (∀ j ≤ s.imgW.toNat * s.imgH.toNat, ∃ u, run j s1 = .next u ∧ u.busy
      ∧ (u.cy = u.jh ↔ j = s.imgW.toNat * s.imgH.toNat))
    ∧ ∃ t, run (s.imgW.toNat * s.imgH.toNat + 1) s1 = .next t ∧ t.jobState = .done
        ∧ t.outLen.toNat = outputLength s.params.rowPad s.imgW.toNat s.imgH.toNat

/-- R146: under any schedule that gives the engine as many turns as pixels are left and one more, a running job reaches DONE,
if the host's accesses are defined and none is a RESET. -/
def Obligations.FairSchedulesFinishTheJob : Prop :=
  ∀ s : State, s.busy → JobInv s → ProgramDefined s → (∀ op ∈ s.prog, opResets op = false) →
    pixelsLeft s + 1 ≤ s.turns.count .engine →
    ∃ k ≤ s.turns.length, ∃ t, run k s = .next t ∧ t.jobState = .done

/-- R95, R33: the output depends on the image, its dimensions, INK_BIT and ROW_PAD alone: two accepted jobs that agree on them,
started in otherwise arbitrary states and interleaved with the host in arbitrary ways, leave the same stream. -/
def Obligations.OutputDependsOnImageAlone : Prop :=
  ∀ (s s1 t s' s1' t' : State) (k k' : Nat),
    ¬ s.busy → exec .process s = .next s1 → (∀ j < k, ∃ u, run j s1 = .next u ∧ u.busy) → run k s1 = .next t →
    t.jobState = .done →
    ¬ s'.busy → exec .process s' = .next s1' → (∀ j < k', ∃ u, run j s1' = .next u ∧ u.busy) → run k' s1' = .next t' →
    t'.jobState = .done →
    s'.imgW = s.imgW → s'.imgH = s.imgH → s'.params.inkBit = s.params.inkBit → s'.params.rowPad = s.params.rowPad →
    (∀ n < s.imgW.toNat * s.imgH.toNat, s.imgWord n ≠ none ∧ s'.imgWord n = s.imgWord n) →
    t'.outputStream = t.outputStream

/-! ## Host notation -/

/-- R68, R7: what the pseudo-instructions expand to, every address exact, and `display` with exactly its W*H pixels in row-major order.
That a line whose numerals exceed the bus has no expansion is the model's reading (log 25). -/
def Obligations.PseudoExpansions : Prop :=
  Pseudo.nop.expand = some [.wr 4 0x000000 0x00000000] ∧ Pseudo.process.expand = some [.wr 4 0x000000 0x00000001]
  ∧ Pseudo.reset.expand = some [.wr 4 0x000000 0x00000002]
  ∧ (∀ dst, (Pseudo.wait dst).expand = some [.wait dst])
  ∧ (∀ W H : Word, (Pseudo.setdim W.toNat H.toNat).expand = some [.wr 4 0x000008 W, .wr 4 0x00000C H])
  ∧ (∀ (x y W : Nat) (a : Addr) (v : Word), a.toNat = 0x400000 + 4 * (y * W + x) →
      (Pseudo.pix x y W v.toNat).expand = some [.wr 4 a v])
  ∧ (∀ x y W v : Nat, 2 ^ 24 ≤ 0x400000 + 4 * (y * W + x) → (Pseudo.pix x y W v).expand = none)
  ∧ (∀ (W H : Word) (pixels : List Word) (dst : Nat),
      (pixels.length ≠ W.toNat * H.toNat → (Pseudo.display W.toNat H.toNat (pixels.map (·.toNat)) dst).expand = none)
      ∧ (pixels.length = W.toNat * H.toNat → 4 * (W.toNat * H.toNat) ≤ 0xC00000 →
        ∃ ops, (Pseudo.display W.toNat H.toNat (pixels.map (·.toNat)) dst).expand
            = some ([.wr 4 0x000008 W, .wr 4 0x00000C H] ++ ops ++ [.wr 4 0x000000 0x00000001, .wait dst])
          ∧ ops.length = W.toNat * H.toNat
          ∧ ∀ x y, x < W.toNat → y < H.toNat → ∃ (a : Addr) (v : Word), a.toNat = 0x400000 + 4 * (y * W.toNat + x)
              ∧ pixels[y * W.toNat + x]? = some v ∧ ops[y * W.toNat + x]? = some (.wr 4 a v)))
end

