-- ==== Sys2Proof/Laws/Arith.lean ====
section
/-! SUPPORT. Laws of the arithmetic: truncating division and shares (spec 00_scope.md R7, 42_dither.md R90), quantisation (R88), byte counts (43_pack.md R101), pixel fields (30_encoding.md R64). -/

namespace Sys2Proof.Machine

/-! ## Shares -/

/-- Division truncated toward zero, on a dividend that is not negative. -/
theorem tdiv_of_nonneg {a b : Int} (ha : 0 ≤ a) (hb : 0 < b) : tdiv a b = a / b := by
  obtain ⟨n, rfl⟩ := Int.eq_ofNat_of_zero_le ha
  obtain ⟨m, rfl⟩ := Int.eq_ofNat_of_zero_le (Int.le_of_lt hb)
  rcases Nat.eq_zero_or_pos n with rfl | hn
  · simp [tdiv]
  · simp [tdiv, Int.sign_natCast_of_ne_zero (Nat.pos_iff_ne_zero.1 hn)]

/-- Truncation is symmetric. -/
theorem tdiv_neg (a b : Int) : tdiv (-a) b = -tdiv a b := by simp [tdiv]

theorem tdiv_of_nonpos {a b : Int} (ha : a ≤ 0) (hb : 0 < b) : tdiv a b = -((-a) / b) := by
  have h := tdiv_of_nonneg (a := -a) (by omega) hb
  rw [← h, tdiv_neg, Int.neg_neg]

/-- A share as floor divisions, a form omega reads. -/
theorem share_eq (k e : Int) : share k e = if 0 ≤ k * e then k * e / 16 else -(-(k * e) / 16) := by
  unfold share
  split
  · exact tdiv_of_nonneg ‹_› (by decide)
  · exact tdiv_of_nonpos (by omega) (by decide)

theorem share_neg (k e : Int) : share k (-e) = -share k e := by
  simp [share, tdiv_neg]

/-- The shares of an error of at most 127 stay within those of 127 (R90, R93). -/
theorem share_bounds {e : Int} (h : -127 ≤ e ∧ e ≤ 127) :
    (-55 ≤ share Config.kRight e ∧ share Config.kRight e ≤ 55)
      ∧ (-23 ≤ share Config.kBelowLeft e ∧ share Config.kBelowLeft e ≤ 23)
      ∧ (-39 ≤ share Config.kBelow e ∧ share Config.kBelow e ≤ 39)
      ∧ (-7 ≤ share Config.kBelowRight e ∧ share Config.kBelowRight e ≤ 7) := by
  simp only [share_eq, Config.kRight, Config.kBelowLeft, Config.kBelow, Config.kBelowRight]
  refine ⟨?_, ?_, ?_, ?_⟩ <;> split <;> omega

/-! ## Quantisation -/

theorem isWhite_iff (v : Int) : isWhite v = true ↔ 128 ≤ v := decide_eq_true_iff

/-- R88, R89 in one formula. -/
theorem quantize_eq (v : Int) : quantize v = (decide (128 ≤ v), if 128 ≤ v then v - 255 else v) := by
  have hw : isWhite v = decide (128 ≤ v) := Bool.eq_iff_iff.2 ((isWhite_iff v).trans decide_eq_true_iff.symm)
  rw [quantize, hw]
  by_cases h : 128 ≤ v <;> simp [level, h]

/-! ## Byte counts and pixel fields -/

theorem ceil8_eq (a : Nat) : ceil8 a = (a + 7) / 8 := by simp [ceil8, Nat.shiftRight_eq_div_pow]

theorem pixelR_lt (p : Word) : pixelR p < 256 := (p.extractLsb' 0 8).isLt
theorem pixelG_lt (p : Word) : pixelG p < 256 := (p.extractLsb' 8 8).isLt
theorem pixelB_lt (p : Word) : pixelB p < 256 := (p.extractLsb' 16 8).isLt

/-- R79: the gray value as a number; the sum never leaves a u32. -/
theorem gray_toNat (p : Word) :
    (gray p).toNat
      = (19595 * (pixelR p * 257) + 38470 * (pixelG p * 257) + 7471 * (pixelB p * 257) + 32768) / 2 ^ 24 := by
  have hr := pixelR_lt p
  have hg := pixelG_lt p
  have hb := pixelB_lt p
  simp only [gray, graySum, widen, Config.weightR, Config.weightG, Config.weightB, BitVec.toNat_ofNat,
    Nat.shiftRight_eq_div_pow]
  omega

end Sys2Proof.Machine
end

