-- ==== Sys2Proof/Laws/Memory.lean ====
section
/-! SUPPORT. Laws of memory: a read after a write, the canonical form, words made of bytes; and laws of the error plane. -/

namespace Sys2Proof

/-- R47: a word put together from its own bytes is the word. -/
@[simp] theorem wordOfBytes_byteOfWord (w : Word) :
    wordOfBytes (byteOfWord w 0) (byteOfWord w 1) (byteOfWord w 2) (byteOfWord w 3) = w := by
  apply BitVec.eq_of_getLsbD_eq
  intro i hi
  simp only [wordOfBytes, byteOfWord, BitVec.getLsbD_append, BitVec.getLsbD_extractLsb']
  split
  · simp [*]
  · split
    · rw [show 8 * 1 + (i - 8) = i by omega]; simp; omega
    · split
      · rw [show 8 * 2 + (i - 8 - 8) = i by omega]; simp; omega
      · rw [show 8 * 3 + (i - 8 - 8 - 8) = i by omega]; simp; omega

namespace Machine

/-! ## Bytes -/

@[simp] theorem Memory.read_nil (a : Nat) : Memory.read [] a = none := rfl

theorem Memory.read_cons (c : Host.Cell) (m : Memory) (a : Nat) :
    Memory.read (c :: m) a = if c.1 = a then some c.2 else Memory.read m a := rfl

/-- A read after a write to the same place gives the value written. -/
@[simp] theorem Memory.read_write_same (m : Memory) (a : Nat) (b : Byte) :
    Memory.read (Memory.write m a b) a = some b := by
  induction m with
  | nil => simp [Memory.write, Memory.read]
  | cons c m ih =>
    rw [Memory.write]
    split
    · simp [Memory.read]
    · split
      · simp [Memory.read]
      · rename_i h1 h2
        rw [Memory.read_cons, if_neg (fun h => h2 h.symm), ih]

/-- A write leaves every other place alone. -/
theorem Memory.read_write_other (m : Memory) {a a' : Nat} (b : Byte) (h : a' ≠ a) :
    Memory.read (Memory.write m a b) a' = Memory.read m a' := by
  induction m with
  | nil => simp [Memory.write, Memory.read, Memory.unlisted, h.symm]
  | cons c m ih =>
    rw [Memory.write]
    split
    · rw [Memory.read_cons, if_neg h.symm]
    · split
      · rename_i h1 h2
        rw [Memory.read_cons, Memory.read_cons, if_neg h.symm, if_neg (h2 ▸ h.symm)]
      · rw [Memory.read_cons, Memory.read_cons, ih]

theorem Memory.read_write (m : Memory) (a a' : Nat) (b : Byte) :
    Memory.read (Memory.write m a b) a' = if a' = a then some b else Memory.read m a' := by
  split
  · subst a'; simp
  · exact Memory.read_write_other m b ‹_›

/-- The cells after a write: the one written, and none that was not there before. -/
theorem Memory.mem_write {m : Memory} {a : Nat} {b : Byte} {c : Host.Cell} (h : c ∈ Memory.write m a b) :
    c = (a, b) ∨ c ∈ m := by
  induction m with
  | nil => simpa [Memory.write] using h
  | cons d m ih =>
    rw [Memory.write] at h
    split at h
    · simpa using h
    · split at h
      · rcases List.mem_cons.1 h with h | h
        · exact .inl h
        · exact .inr (List.mem_cons_of_mem _ h)
      · rcases List.mem_cons.1 h with h | h
        · exact .inr (by simp [h])
        · exact (ih h).imp_right (List.mem_cons_of_mem _)

/-- A write keeps the canonical form. -/
theorem Memory.write_wf {m : Memory} (h : Memory.wf m) (a : Nat) (b : Byte) : Memory.wf (Memory.write m a b) := by
  induction m with
  | nil => simp [Memory.write, Memory.wf]
  | cons c m ih =>
    have hc := List.pairwise_cons.1 h
    rw [Memory.write]
    split
    · rename_i hlt
      refine List.pairwise_cons.2 ⟨fun d hd => ?_, h⟩
      rcases List.mem_cons.1 hd with rfl | hd
      · exact hlt
      · exact Nat.lt_trans hlt (hc.1 d hd)
    · split
      · rename_i heq
        exact List.pairwise_cons.2 ⟨fun d hd => heq ▸ hc.1 d hd, hc.2⟩
      · refine List.pairwise_cons.2 ⟨fun d hd => ?_, ih hc.2⟩
        rcases Memory.mem_write hd with rfl | hd
        · simp only; omega
        · exact hc.1 d hd

theorem Memory.nil_wf : Memory.wf [] := List.Pairwise.nil

/-- Both memories of the power-on state are in canonical form. -/
theorem State.powerOn_wf (p : Config.Params) : Memory.wf (State.powerOn p).img ∧ Memory.wf (State.powerOn p).out :=
  ⟨Memory.nil_wf, Memory.nil_wf⟩

/-! ## Words -/

/-- A byte outside the four of a word written is as before. -/
theorem Memory.read_writeWord_other (m : Memory) (a a' : Nat) (v : Word) (h : a' < a ∨ a + 4 ≤ a') :
    Memory.read (Memory.writeWord m a v) a' = Memory.read m a' := by
  simp only [Memory.writeWord, Memory.read_write]
  repeat rw [if_neg (by omega)]

/-- A word read after it was written is that word (R39, R47). -/
@[simp] theorem Memory.readWord_writeWord_same (m : Memory) (a : Nat) (v : Word) :
    Memory.readWord (Memory.writeWord m a v) a = some v := by
  simp [Memory.readWord, Memory.writeWord, Memory.read_write]

/-- A word that does not overlap the one written is as before. -/
theorem Memory.readWord_writeWord_other (m : Memory) (a a' : Nat) (v : Word) (h : a' + 4 ≤ a ∨ a + 4 ≤ a') :
    Memory.readWord (Memory.writeWord m a v) a' = Memory.readWord m a' := by
  simp only [Memory.readWord]
  rw [Memory.read_writeWord_other _ _ _ _ (by omega), Memory.read_writeWord_other _ _ _ _ (by omega),
    Memory.read_writeWord_other _ _ _ _ (by omega), Memory.read_writeWord_other _ _ _ _ (by omega)]

theorem Memory.writeWord_wf {m : Memory} (h : Memory.wf m) (a : Nat) (v : Word) :
    Memory.wf (Memory.writeWord m a v) :=
  Memory.write_wf (Memory.write_wf (Memory.write_wf (Memory.write_wf h _ _) _ _) _ _) _ _

/-- The cells after a word is written: its four bytes, and none that was not there before. -/
theorem Memory.mem_writeWord {m : Memory} {a : Nat} {v : Word} {c : Host.Cell}
    (h : c ∈ Memory.writeWord m a v) : (a ≤ c.1 ∧ c.1 < a + 4) ∨ c ∈ m := by
  rcases Memory.mem_write h with rfl | h
  · exact .inl (by simp)
  rcases Memory.mem_write h with rfl | h
  · exact .inl (by simp)
  rcases Memory.mem_write h with rfl | h
  · exact .inl (by simp)
  rcases Memory.mem_write h with rfl | h
  · exact .inl (by simp)
  · exact .inr h

/-! ## The error plane -/

@[simp] theorem ErrPlane.length_set (p : ErrPlane) (y x : Nat) (e : Half) :
    (ErrPlane.set p y x e).length = p.length := by simp [ErrPlane.set]

@[simp] theorem ErrPlane.length_add (p : ErrPlane) (y x : Nat) (d : Int) :
    (ErrPlane.add p y x d).length = p.length := by simp [ErrPlane.add]

/-- A plane of H rows of W entries. -/
def ErrPlane.sized (p : ErrPlane) (W H : Nat) : Prop := p.length = H ∧ ∀ row ∈ p, row.length = W

theorem ErrPlane.sized_zero (W H : Nat) : ErrPlane.sized (ErrPlane.zero W H) W H := by
  refine ⟨by simp [ErrPlane.zero], fun row h => ?_⟩
  simp only [ErrPlane.zero, List.mem_replicate] at h
  simp [h.2]

theorem ErrPlane.get_zero (W H y x : Nat) : ErrPlane.get (ErrPlane.zero W H) y x = 0 := by
  simp only [ErrPlane.get, ErrPlane.zero, List.getD_eq_getElem?_getD, List.getElem?_replicate]
  split <;> simp [List.getElem?_replicate]
  split <;> rfl

theorem ErrPlane.row_length {p : ErrPlane} {W H y : Nat} (h : ErrPlane.sized p W H) (hy : y < H) :
    (p.getD y []).length = W := by
  have hl : y < p.length := h.1.symm ▸ hy
  simp only [List.getD_eq_getElem?_getD, List.getElem?_eq_getElem hl, Option.getD_some]
  exact h.2 _ (List.getElem_mem hl)

theorem ErrPlane.sized_set {p : ErrPlane} {W H : Nat} (h : ErrPlane.sized p W H) (y x : Nat) (e : Half) :
    ErrPlane.sized (ErrPlane.set p y x e) W H := by
  refine ⟨by simpa using h.1, fun row hr => ?_⟩
  rcases List.mem_or_eq_of_mem_set hr with hr | rfl
  · exact h.2 row hr
  · by_cases hy : y < H
    · simpa using ErrPlane.row_length h hy
    · rw [ErrPlane.set, List.set_eq_of_length_le (by rw [h.1]; omega)] at hr
      exact h.2 _ hr

theorem ErrPlane.sized_add {p : ErrPlane} {W H : Nat} (h : ErrPlane.sized p W H) (y x : Nat) (d : Int) :
    ErrPlane.sized (ErrPlane.add p y x d) W H := ErrPlane.sized_set h y x _

/-- Reading a plane after one entry is replaced. -/
theorem ErrPlane.get_set {p : ErrPlane} {W H y x : Nat} (h : ErrPlane.sized p W H) (hy : y < H) (hx : x < W)
    (e : Half) (y' x' : Nat) :
    ErrPlane.get (ErrPlane.set p y x e) y' x' = if y' = y ∧ x' = x then e else ErrPlane.get p y' x' := by
  have hl : y < p.length := h.1.symm ▸ hy
  have hr := ErrPlane.row_length h hy
  simp only [ErrPlane.get, ErrPlane.set]
  by_cases h1 : y' = y
  · subst h1
    simp only [List.getD_eq_getElem?_getD, List.getElem?_set_self hl, Option.getD_some, true_and]
    by_cases h2 : x' = x
    · subst h2
      rw [if_pos rfl, List.getElem?_set_self (by simpa using hr ▸ hx)]; rfl
    · rw [if_neg h2, List.getElem?_set_ne (fun h => h2 h.symm)]
  · rw [if_neg (fun h => h1 h.1)]
    simp only [List.getD_eq_getElem?_getD]
    rw [List.getElem?_set_ne (fun h => h1 h.symm)]

/-- Reading a plane after a share is added to one entry, where the sum is an s16. -/
theorem ErrPlane.get_add {p : ErrPlane} {W H y x : Nat} (h : ErrPlane.sized p W H) (hy : y < H) (hx : x < W)
    (d : Int) (y' x' : Nat)
    (hb : -32768 ≤ (ErrPlane.get p y x).toInt + d ∧ (ErrPlane.get p y x).toInt + d < 32768) :
    (ErrPlane.get (ErrPlane.add p y x d) y' x').toInt
      = (ErrPlane.get p y' x').toInt + if y' = y ∧ x' = x then d else 0 := by
  rw [ErrPlane.add, ErrPlane.get_set h hy hx]
  split
  · rename_i hh
    rw [hh.1, hh.2, BitVec.toInt_ofInt, Int.bmod_eq_of_le (by simpa using hb.1) (by simpa using hb.2)]
  · simp

end Machine
end Sys2Proof
end

