-- ==== Sys2Proof/Laws/Decode.lean ====
section
/-! SUPPORT. Laws of the decoder that callers cite instead of unfolding it. -/

namespace Sys2Proof

/-- The decoder on the bytes of a word is the decoder on the word (spec 20_memory.md R47). -/
@[simp] theorem decodeBytes_bytesOfWord (w : Word) (rest : List Byte) :
    decodeBytes (bytesOfWord w ++ rest) = (decodeWord w).map (fun i => (i, rest)) := by
  simp only [bytesOfWord, List.cons_append, List.nil_append, decodeBytes, wordOfBytes_byteOfWord]
  cases decodeWord w <;> rfl

theorem decodeTableWord_eq (nbits w : Nat) :
    decodeTableWord nbits w = (decodeWord (tableWord nbits w)).toOption := by
  have h := decodeBytes_bytesOfWord (tableWord nbits w) []
  rw [List.append_nil] at h
  rw [decodeTableWord, h]
  cases decodeWord (tableWord nbits w) <;> rfl

@[simp] theorem tableWord_toNat (w : Word) : tableWord 32 w.toNat = w := by
  rw [tableWord, Nat.mod_eq_of_lt w.isLt, BitVec.ofNat_toNat, BitVec.setWidth_eq]

end Sys2Proof
end

