-- ==== Sys2Proof/Laws/State.lean ====
section
/-! SUPPORT. What each named update of State does to each field: one lemma per field, true by unfolding the update once. -/

namespace Sys2Proof.Machine

variable (s : State)

theorem State.busy_iff {s : State} : s.busy = true ↔ s.jobState = .busy := decide_eq_true_iff

theorem State.not_busy_iff {s : State} : s.busy = false ↔ s.jobState ≠ .busy := decide_eq_false_iff_not

/-! ## setRej -/

@[simp] theorem State.setRej_params : s.setRej.params = s.params := rfl
@[simp] theorem State.setRej_jobState : s.setRej.jobState = s.jobState := rfl
@[simp] theorem State.setRej_busy : s.setRej.busy = s.busy := rfl
@[simp] theorem State.setRej_rej : s.setRej.rej = true := rfl
@[simp] theorem State.setRej_err : s.setRej.err = s.err := rfl
@[simp] theorem State.setRej_imgW : s.setRej.imgW = s.imgW := rfl
@[simp] theorem State.setRej_imgH : s.setRej.imgH = s.imgH := rfl
@[simp] theorem State.setRej_outLen : s.setRej.outLen = s.outLen := rfl
@[simp] theorem State.setRej_img : s.setRej.img = s.img := rfl
@[simp] theorem State.setRej_out : s.setRej.out = s.out := rfl
@[simp] theorem State.setRej_jw : s.setRej.jw = s.jw := rfl
@[simp] theorem State.setRej_jh : s.setRej.jh = s.jh := rfl
@[simp] theorem State.setRej_jbpr : s.setRej.jbpr = s.jbpr := rfl
@[simp] theorem State.setRej_jlen : s.setRej.jlen = s.jlen := rfl
@[simp] theorem State.setRej_cy : s.setRej.cy = s.cy := rfl
@[simp] theorem State.setRej_cx : s.setRej.cx = s.cx := rfl
@[simp] theorem State.setRej_errPlane : s.setRej.errPlane = s.errPlane := rfl
@[simp] theorem State.setRej_pk : s.setRej.pk = s.pk := rfl
@[simp] theorem State.setRej_pkn : s.setRej.pkn = s.pkn := rfl
@[simp] theorem State.setRej_draws : s.setRej.draws = s.draws := rfl
@[simp] theorem State.setRej_prog : s.setRej.prog = s.prog := rfl
@[simp] theorem State.setRej_turns : s.setRej.turns = s.turns := rfl
@[simp] theorem State.setRej_vars : s.setRej.vars = s.vars := rfl

/-! ## raiseBlockError -/

@[simp] theorem State.raiseBlockError_params (c : ErrCode) : (s.raiseBlockError c).params = s.params := rfl
@[simp] theorem State.raiseBlockError_jobState (c : ErrCode) : (s.raiseBlockError c).jobState = .error := rfl
@[simp] theorem State.raiseBlockError_busy (c : ErrCode) : (s.raiseBlockError c).busy = false := rfl
@[simp] theorem State.raiseBlockError_rej (c : ErrCode) : (s.raiseBlockError c).rej = s.rej := rfl
@[simp] theorem State.raiseBlockError_err (c : ErrCode) : (s.raiseBlockError c).err = c := rfl
@[simp] theorem State.raiseBlockError_imgW (c : ErrCode) : (s.raiseBlockError c).imgW = s.imgW := rfl
@[simp] theorem State.raiseBlockError_imgH (c : ErrCode) : (s.raiseBlockError c).imgH = s.imgH := rfl
@[simp] theorem State.raiseBlockError_outLen (c : ErrCode) : (s.raiseBlockError c).outLen = if c.zeroesOutLen then 0 else s.outLen := rfl
@[simp] theorem State.raiseBlockError_img (c : ErrCode) : (s.raiseBlockError c).img = s.img := rfl
@[simp] theorem State.raiseBlockError_out (c : ErrCode) : (s.raiseBlockError c).out = s.out := rfl
@[simp] theorem State.raiseBlockError_jw (c : ErrCode) : (s.raiseBlockError c).jw = s.jw := rfl
@[simp] theorem State.raiseBlockError_jh (c : ErrCode) : (s.raiseBlockError c).jh = s.jh := rfl
@[simp] theorem State.raiseBlockError_jbpr (c : ErrCode) : (s.raiseBlockError c).jbpr = s.jbpr := rfl
@[simp] theorem State.raiseBlockError_jlen (c : ErrCode) : (s.raiseBlockError c).jlen = s.jlen := rfl
@[simp] theorem State.raiseBlockError_cy (c : ErrCode) : (s.raiseBlockError c).cy = s.cy := rfl
@[simp] theorem State.raiseBlockError_cx (c : ErrCode) : (s.raiseBlockError c).cx = s.cx := rfl
@[simp] theorem State.raiseBlockError_errPlane (c : ErrCode) : (s.raiseBlockError c).errPlane = s.errPlane := rfl
@[simp] theorem State.raiseBlockError_pk (c : ErrCode) : (s.raiseBlockError c).pk = s.pk := rfl
@[simp] theorem State.raiseBlockError_pkn (c : ErrCode) : (s.raiseBlockError c).pkn = s.pkn := rfl
@[simp] theorem State.raiseBlockError_draws (c : ErrCode) : (s.raiseBlockError c).draws = s.draws := rfl
@[simp] theorem State.raiseBlockError_prog (c : ErrCode) : (s.raiseBlockError c).prog = s.prog := rfl
@[simp] theorem State.raiseBlockError_turns (c : ErrCode) : (s.raiseBlockError c).turns = s.turns := rfl
@[simp] theorem State.raiseBlockError_vars (c : ErrCode) : (s.raiseBlockError c).vars = s.vars := rfl

/-! ## clearStatus -/

@[simp] theorem State.clearStatus_params : s.clearStatus.params = s.params := rfl
@[simp] theorem State.clearStatus_jobState : s.clearStatus.jobState = .idle := rfl
@[simp] theorem State.clearStatus_busy : s.clearStatus.busy = false := rfl
@[simp] theorem State.clearStatus_rej : s.clearStatus.rej = false := rfl
@[simp] theorem State.clearStatus_err : s.clearStatus.err = .none := rfl
@[simp] theorem State.clearStatus_imgW : s.clearStatus.imgW = s.imgW := rfl
@[simp] theorem State.clearStatus_imgH : s.clearStatus.imgH = s.imgH := rfl
@[simp] theorem State.clearStatus_outLen : s.clearStatus.outLen = 0 := rfl
@[simp] theorem State.clearStatus_img : s.clearStatus.img = s.img := rfl
@[simp] theorem State.clearStatus_out : s.clearStatus.out = s.out := rfl
@[simp] theorem State.clearStatus_jw : s.clearStatus.jw = s.jw := rfl
@[simp] theorem State.clearStatus_jh : s.clearStatus.jh = s.jh := rfl
@[simp] theorem State.clearStatus_jbpr : s.clearStatus.jbpr = s.jbpr := rfl
@[simp] theorem State.clearStatus_jlen : s.clearStatus.jlen = s.jlen := rfl
@[simp] theorem State.clearStatus_cy : s.clearStatus.cy = s.cy := rfl
@[simp] theorem State.clearStatus_cx : s.clearStatus.cx = s.cx := rfl
@[simp] theorem State.clearStatus_errPlane : s.clearStatus.errPlane = s.errPlane := rfl
@[simp] theorem State.clearStatus_pk : s.clearStatus.pk = s.pk := rfl
@[simp] theorem State.clearStatus_pkn : s.clearStatus.pkn = s.pkn := rfl
@[simp] theorem State.clearStatus_draws : s.clearStatus.draws = s.draws := rfl
@[simp] theorem State.clearStatus_prog : s.clearStatus.prog = s.prog := rfl
@[simp] theorem State.clearStatus_turns : s.clearStatus.turns = s.turns := rfl
@[simp] theorem State.clearStatus_vars : s.clearStatus.vars = s.vars := rfl

/-! ## abandonJob -/

@[simp] theorem State.abandonJob_params : s.abandonJob.params = s.params := rfl
@[simp] theorem State.abandonJob_jobState : s.abandonJob.jobState = s.jobState := rfl
@[simp] theorem State.abandonJob_busy : s.abandonJob.busy = s.busy := rfl
@[simp] theorem State.abandonJob_rej : s.abandonJob.rej = s.rej := rfl
@[simp] theorem State.abandonJob_err : s.abandonJob.err = s.err := rfl
@[simp] theorem State.abandonJob_imgW : s.abandonJob.imgW = s.imgW := rfl
@[simp] theorem State.abandonJob_imgH : s.abandonJob.imgH = s.imgH := rfl
@[simp] theorem State.abandonJob_outLen : s.abandonJob.outLen = s.outLen := rfl
@[simp] theorem State.abandonJob_img : s.abandonJob.img = s.img := rfl
@[simp] theorem State.abandonJob_out : s.abandonJob.out = [] := rfl
@[simp] theorem State.abandonJob_draws : s.abandonJob.draws = s.draws + 9 := rfl
@[simp] theorem State.abandonJob_prog : s.abandonJob.prog = s.prog := rfl
@[simp] theorem State.abandonJob_turns : s.abandonJob.turns = s.turns := rfl
@[simp] theorem State.abandonJob_vars : s.abandonJob.vars = s.vars := rfl

/-! ## acceptJob -/

@[simp] theorem State.acceptJob_params (W H L : Nat) : (s.acceptJob W H L).params = s.params := rfl
@[simp] theorem State.acceptJob_jobState (W H L : Nat) : (s.acceptJob W H L).jobState = .busy := rfl
@[simp] theorem State.acceptJob_busy (W H L : Nat) : (s.acceptJob W H L).busy = true := rfl
@[simp] theorem State.acceptJob_rej (W H L : Nat) : (s.acceptJob W H L).rej = false := rfl
@[simp] theorem State.acceptJob_err (W H L : Nat) : (s.acceptJob W H L).err = .none := rfl
@[simp] theorem State.acceptJob_imgW (W H L : Nat) : (s.acceptJob W H L).imgW = s.imgW := rfl
@[simp] theorem State.acceptJob_imgH (W H L : Nat) : (s.acceptJob W H L).imgH = s.imgH := rfl
@[simp] theorem State.acceptJob_outLen (W H L : Nat) : (s.acceptJob W H L).outLen = 0 := rfl
@[simp] theorem State.acceptJob_img (W H L : Nat) : (s.acceptJob W H L).img = s.img := rfl
@[simp] theorem State.acceptJob_out (W H L : Nat) : (s.acceptJob W H L).out = s.out := rfl
@[simp] theorem State.acceptJob_jw (W H L : Nat) : (s.acceptJob W H L).jw = BitVec.ofNat 16 W := rfl
@[simp] theorem State.acceptJob_jh (W H L : Nat) : (s.acceptJob W H L).jh = BitVec.ofNat 16 H := rfl
@[simp] theorem State.acceptJob_jbpr (W H L : Nat) : (s.acceptJob W H L).jbpr = BitVec.ofNat 16 (bytesPerRow s.params.rowPad W) := rfl
@[simp] theorem State.acceptJob_jlen (W H L : Nat) : (s.acceptJob W H L).jlen = BitVec.ofNat 32 L := rfl
@[simp] theorem State.acceptJob_cy (W H L : Nat) : (s.acceptJob W H L).cy = 0 := rfl
@[simp] theorem State.acceptJob_cx (W H L : Nat) : (s.acceptJob W H L).cx = 0 := rfl
@[simp] theorem State.acceptJob_errPlane (W H L : Nat) : (s.acceptJob W H L).errPlane = ErrPlane.zero W H := rfl
@[simp] theorem State.acceptJob_pk (W H L : Nat) : (s.acceptJob W H L).pk = 0 := rfl
@[simp] theorem State.acceptJob_pkn (W H L : Nat) : (s.acceptJob W H L).pkn = 0 := rfl
@[simp] theorem State.acceptJob_draws (W H L : Nat) : (s.acceptJob W H L).draws = s.draws := rfl
@[simp] theorem State.acceptJob_prog (W H L : Nat) : (s.acceptJob W H L).prog = s.prog := rfl
@[simp] theorem State.acceptJob_turns (W H L : Nat) : (s.acceptJob W H L).turns = s.turns := rfl
@[simp] theorem State.acceptJob_vars (W H L : Nat) : (s.acceptJob W H L).vars = s.vars := rfl

/-! ## setPacker -/

@[simp] theorem State.setPacker_params (b : Byte) (n : Nat) : (s.setPacker b n).params = s.params := rfl
@[simp] theorem State.setPacker_jobState (b : Byte) (n : Nat) : (s.setPacker b n).jobState = s.jobState := rfl
@[simp] theorem State.setPacker_busy (b : Byte) (n : Nat) : (s.setPacker b n).busy = s.busy := rfl
@[simp] theorem State.setPacker_rej (b : Byte) (n : Nat) : (s.setPacker b n).rej = s.rej := rfl
@[simp] theorem State.setPacker_err (b : Byte) (n : Nat) : (s.setPacker b n).err = s.err := rfl
@[simp] theorem State.setPacker_imgW (b : Byte) (n : Nat) : (s.setPacker b n).imgW = s.imgW := rfl
@[simp] theorem State.setPacker_imgH (b : Byte) (n : Nat) : (s.setPacker b n).imgH = s.imgH := rfl
@[simp] theorem State.setPacker_outLen (b : Byte) (n : Nat) : (s.setPacker b n).outLen = s.outLen := rfl
@[simp] theorem State.setPacker_img (b : Byte) (n : Nat) : (s.setPacker b n).img = s.img := rfl
@[simp] theorem State.setPacker_out (b : Byte) (n : Nat) : (s.setPacker b n).out = s.out := rfl
@[simp] theorem State.setPacker_jw (b : Byte) (n : Nat) : (s.setPacker b n).jw = s.jw := rfl
@[simp] theorem State.setPacker_jh (b : Byte) (n : Nat) : (s.setPacker b n).jh = s.jh := rfl
@[simp] theorem State.setPacker_jbpr (b : Byte) (n : Nat) : (s.setPacker b n).jbpr = s.jbpr := rfl
@[simp] theorem State.setPacker_jlen (b : Byte) (n : Nat) : (s.setPacker b n).jlen = s.jlen := rfl
@[simp] theorem State.setPacker_cy (b : Byte) (n : Nat) : (s.setPacker b n).cy = s.cy := rfl
@[simp] theorem State.setPacker_cx (b : Byte) (n : Nat) : (s.setPacker b n).cx = s.cx := rfl
@[simp] theorem State.setPacker_errPlane (b : Byte) (n : Nat) : (s.setPacker b n).errPlane = s.errPlane := rfl
@[simp] theorem State.setPacker_pk (b : Byte) (n : Nat) : (s.setPacker b n).pk = b := rfl
@[simp] theorem State.setPacker_pkn (b : Byte) (n : Nat) : (s.setPacker b n).pkn = n := rfl
@[simp] theorem State.setPacker_draws (b : Byte) (n : Nat) : (s.setPacker b n).draws = s.draws := rfl
@[simp] theorem State.setPacker_prog (b : Byte) (n : Nat) : (s.setPacker b n).prog = s.prog := rfl
@[simp] theorem State.setPacker_turns (b : Byte) (n : Nat) : (s.setPacker b n).turns = s.turns := rfl
@[simp] theorem State.setPacker_vars (b : Byte) (n : Nat) : (s.setPacker b n).vars = s.vars := rfl

/-! ## writeOut -/

@[simp] theorem State.writeOut_params (i : Nat) (b : Byte) : (s.writeOut i b).params = s.params := rfl
@[simp] theorem State.writeOut_jobState (i : Nat) (b : Byte) : (s.writeOut i b).jobState = s.jobState := rfl
@[simp] theorem State.writeOut_busy (i : Nat) (b : Byte) : (s.writeOut i b).busy = s.busy := rfl
@[simp] theorem State.writeOut_rej (i : Nat) (b : Byte) : (s.writeOut i b).rej = s.rej := rfl
@[simp] theorem State.writeOut_err (i : Nat) (b : Byte) : (s.writeOut i b).err = s.err := rfl
@[simp] theorem State.writeOut_imgW (i : Nat) (b : Byte) : (s.writeOut i b).imgW = s.imgW := rfl
@[simp] theorem State.writeOut_imgH (i : Nat) (b : Byte) : (s.writeOut i b).imgH = s.imgH := rfl
@[simp] theorem State.writeOut_outLen (i : Nat) (b : Byte) : (s.writeOut i b).outLen = s.outLen := rfl
@[simp] theorem State.writeOut_img (i : Nat) (b : Byte) : (s.writeOut i b).img = s.img := rfl
@[simp] theorem State.writeOut_out (i : Nat) (b : Byte) : (s.writeOut i b).out = Memory.write s.out (Config.outBase + i) b := rfl
@[simp] theorem State.writeOut_jw (i : Nat) (b : Byte) : (s.writeOut i b).jw = s.jw := rfl
@[simp] theorem State.writeOut_jh (i : Nat) (b : Byte) : (s.writeOut i b).jh = s.jh := rfl
@[simp] theorem State.writeOut_jbpr (i : Nat) (b : Byte) : (s.writeOut i b).jbpr = s.jbpr := rfl
@[simp] theorem State.writeOut_jlen (i : Nat) (b : Byte) : (s.writeOut i b).jlen = s.jlen := rfl
@[simp] theorem State.writeOut_cy (i : Nat) (b : Byte) : (s.writeOut i b).cy = s.cy := rfl
@[simp] theorem State.writeOut_cx (i : Nat) (b : Byte) : (s.writeOut i b).cx = s.cx := rfl
@[simp] theorem State.writeOut_errPlane (i : Nat) (b : Byte) : (s.writeOut i b).errPlane = s.errPlane := rfl
@[simp] theorem State.writeOut_pk (i : Nat) (b : Byte) : (s.writeOut i b).pk = s.pk := rfl
@[simp] theorem State.writeOut_pkn (i : Nat) (b : Byte) : (s.writeOut i b).pkn = s.pkn := rfl
@[simp] theorem State.writeOut_draws (i : Nat) (b : Byte) : (s.writeOut i b).draws = s.draws := rfl
@[simp] theorem State.writeOut_prog (i : Nat) (b : Byte) : (s.writeOut i b).prog = s.prog := rfl
@[simp] theorem State.writeOut_turns (i : Nat) (b : Byte) : (s.writeOut i b).turns = s.turns := rfl
@[simp] theorem State.writeOut_vars (i : Nat) (b : Byte) : (s.writeOut i b).vars = s.vars := rfl

/-! ## setCursor -/

@[simp] theorem State.setCursor_params (y x : Nat) : (s.setCursor y x).params = s.params := rfl
@[simp] theorem State.setCursor_jobState (y x : Nat) : (s.setCursor y x).jobState = s.jobState := rfl
@[simp] theorem State.setCursor_busy (y x : Nat) : (s.setCursor y x).busy = s.busy := rfl
@[simp] theorem State.setCursor_rej (y x : Nat) : (s.setCursor y x).rej = s.rej := rfl
@[simp] theorem State.setCursor_err (y x : Nat) : (s.setCursor y x).err = s.err := rfl
@[simp] theorem State.setCursor_imgW (y x : Nat) : (s.setCursor y x).imgW = s.imgW := rfl
@[simp] theorem State.setCursor_imgH (y x : Nat) : (s.setCursor y x).imgH = s.imgH := rfl
@[simp] theorem State.setCursor_outLen (y x : Nat) : (s.setCursor y x).outLen = s.outLen := rfl
@[simp] theorem State.setCursor_img (y x : Nat) : (s.setCursor y x).img = s.img := rfl
@[simp] theorem State.setCursor_out (y x : Nat) : (s.setCursor y x).out = s.out := rfl
@[simp] theorem State.setCursor_jw (y x : Nat) : (s.setCursor y x).jw = s.jw := rfl
@[simp] theorem State.setCursor_jh (y x : Nat) : (s.setCursor y x).jh = s.jh := rfl
@[simp] theorem State.setCursor_jbpr (y x : Nat) : (s.setCursor y x).jbpr = s.jbpr := rfl
@[simp] theorem State.setCursor_jlen (y x : Nat) : (s.setCursor y x).jlen = s.jlen := rfl
@[simp] theorem State.setCursor_cy (y x : Nat) : (s.setCursor y x).cy = BitVec.ofNat 16 y := rfl
@[simp] theorem State.setCursor_cx (y x : Nat) : (s.setCursor y x).cx = BitVec.ofNat 16 x := rfl
@[simp] theorem State.setCursor_errPlane (y x : Nat) : (s.setCursor y x).errPlane = s.errPlane := rfl
@[simp] theorem State.setCursor_pk (y x : Nat) : (s.setCursor y x).pk = s.pk := rfl
@[simp] theorem State.setCursor_pkn (y x : Nat) : (s.setCursor y x).pkn = s.pkn := rfl
@[simp] theorem State.setCursor_draws (y x : Nat) : (s.setCursor y x).draws = s.draws := rfl
@[simp] theorem State.setCursor_prog (y x : Nat) : (s.setCursor y x).prog = s.prog := rfl
@[simp] theorem State.setCursor_turns (y x : Nat) : (s.setCursor y x).turns = s.turns := rfl
@[simp] theorem State.setCursor_vars (y x : Nat) : (s.setCursor y x).vars = s.vars := rfl

/-! ## bind -/

@[simp] theorem State.bind_params (d : Nat) (v : Word) : (s.bind d v).params = s.params := rfl
@[simp] theorem State.bind_jobState (d : Nat) (v : Word) : (s.bind d v).jobState = s.jobState := rfl
@[simp] theorem State.bind_busy (d : Nat) (v : Word) : (s.bind d v).busy = s.busy := rfl
@[simp] theorem State.bind_rej (d : Nat) (v : Word) : (s.bind d v).rej = s.rej := rfl
@[simp] theorem State.bind_err (d : Nat) (v : Word) : (s.bind d v).err = s.err := rfl
@[simp] theorem State.bind_imgW (d : Nat) (v : Word) : (s.bind d v).imgW = s.imgW := rfl
@[simp] theorem State.bind_imgH (d : Nat) (v : Word) : (s.bind d v).imgH = s.imgH := rfl
@[simp] theorem State.bind_outLen (d : Nat) (v : Word) : (s.bind d v).outLen = s.outLen := rfl
@[simp] theorem State.bind_img (d : Nat) (v : Word) : (s.bind d v).img = s.img := rfl
@[simp] theorem State.bind_out (d : Nat) (v : Word) : (s.bind d v).out = s.out := rfl
@[simp] theorem State.bind_jw (d : Nat) (v : Word) : (s.bind d v).jw = s.jw := rfl
@[simp] theorem State.bind_jh (d : Nat) (v : Word) : (s.bind d v).jh = s.jh := rfl
@[simp] theorem State.bind_jbpr (d : Nat) (v : Word) : (s.bind d v).jbpr = s.jbpr := rfl
@[simp] theorem State.bind_jlen (d : Nat) (v : Word) : (s.bind d v).jlen = s.jlen := rfl
@[simp] theorem State.bind_cy (d : Nat) (v : Word) : (s.bind d v).cy = s.cy := rfl
@[simp] theorem State.bind_cx (d : Nat) (v : Word) : (s.bind d v).cx = s.cx := rfl
@[simp] theorem State.bind_errPlane (d : Nat) (v : Word) : (s.bind d v).errPlane = s.errPlane := rfl
@[simp] theorem State.bind_pk (d : Nat) (v : Word) : (s.bind d v).pk = s.pk := rfl
@[simp] theorem State.bind_pkn (d : Nat) (v : Word) : (s.bind d v).pkn = s.pkn := rfl
@[simp] theorem State.bind_draws (d : Nat) (v : Word) : (s.bind d v).draws = s.draws := rfl
@[simp] theorem State.bind_prog (d : Nat) (v : Word) : (s.bind d v).prog = s.prog := rfl
@[simp] theorem State.bind_turns (d : Nat) (v : Word) : (s.bind d v).turns = s.turns := rfl
@[simp] theorem State.bind_vars (d : Nat) (v : Word) : (s.bind d v).vars = (d, v) :: s.vars := rfl

/-! ## setProg -/

@[simp] theorem State.setProg_params (q : List BusOp) : (s.setProg q).params = s.params := rfl
@[simp] theorem State.setProg_jobState (q : List BusOp) : (s.setProg q).jobState = s.jobState := rfl
@[simp] theorem State.setProg_busy (q : List BusOp) : (s.setProg q).busy = s.busy := rfl
@[simp] theorem State.setProg_rej (q : List BusOp) : (s.setProg q).rej = s.rej := rfl
@[simp] theorem State.setProg_err (q : List BusOp) : (s.setProg q).err = s.err := rfl
@[simp] theorem State.setProg_imgW (q : List BusOp) : (s.setProg q).imgW = s.imgW := rfl
@[simp] theorem State.setProg_imgH (q : List BusOp) : (s.setProg q).imgH = s.imgH := rfl
@[simp] theorem State.setProg_outLen (q : List BusOp) : (s.setProg q).outLen = s.outLen := rfl
@[simp] theorem State.setProg_img (q : List BusOp) : (s.setProg q).img = s.img := rfl
@[simp] theorem State.setProg_out (q : List BusOp) : (s.setProg q).out = s.out := rfl
@[simp] theorem State.setProg_jw (q : List BusOp) : (s.setProg q).jw = s.jw := rfl
@[simp] theorem State.setProg_jh (q : List BusOp) : (s.setProg q).jh = s.jh := rfl
@[simp] theorem State.setProg_jbpr (q : List BusOp) : (s.setProg q).jbpr = s.jbpr := rfl
@[simp] theorem State.setProg_jlen (q : List BusOp) : (s.setProg q).jlen = s.jlen := rfl
@[simp] theorem State.setProg_cy (q : List BusOp) : (s.setProg q).cy = s.cy := rfl
@[simp] theorem State.setProg_cx (q : List BusOp) : (s.setProg q).cx = s.cx := rfl
@[simp] theorem State.setProg_errPlane (q : List BusOp) : (s.setProg q).errPlane = s.errPlane := rfl
@[simp] theorem State.setProg_pk (q : List BusOp) : (s.setProg q).pk = s.pk := rfl
@[simp] theorem State.setProg_pkn (q : List BusOp) : (s.setProg q).pkn = s.pkn := rfl
@[simp] theorem State.setProg_draws (q : List BusOp) : (s.setProg q).draws = s.draws := rfl
@[simp] theorem State.setProg_prog (q : List BusOp) : (s.setProg q).prog = q := rfl
@[simp] theorem State.setProg_turns (q : List BusOp) : (s.setProg q).turns = s.turns := rfl
@[simp] theorem State.setProg_vars (q : List BusOp) : (s.setProg q).vars = s.vars := rfl

/-! ## setTurns -/

@[simp] theorem State.setTurns_params (q : List Agent) : (s.setTurns q).params = s.params := rfl
@[simp] theorem State.setTurns_jobState (q : List Agent) : (s.setTurns q).jobState = s.jobState := rfl
@[simp] theorem State.setTurns_busy (q : List Agent) : (s.setTurns q).busy = s.busy := rfl
@[simp] theorem State.setTurns_rej (q : List Agent) : (s.setTurns q).rej = s.rej := rfl
@[simp] theorem State.setTurns_err (q : List Agent) : (s.setTurns q).err = s.err := rfl
@[simp] theorem State.setTurns_imgW (q : List Agent) : (s.setTurns q).imgW = s.imgW := rfl
@[simp] theorem State.setTurns_imgH (q : List Agent) : (s.setTurns q).imgH = s.imgH := rfl
@[simp] theorem State.setTurns_outLen (q : List Agent) : (s.setTurns q).outLen = s.outLen := rfl
@[simp] theorem State.setTurns_img (q : List Agent) : (s.setTurns q).img = s.img := rfl
@[simp] theorem State.setTurns_out (q : List Agent) : (s.setTurns q).out = s.out := rfl
@[simp] theorem State.setTurns_jw (q : List Agent) : (s.setTurns q).jw = s.jw := rfl
@[simp] theorem State.setTurns_jh (q : List Agent) : (s.setTurns q).jh = s.jh := rfl
@[simp] theorem State.setTurns_jbpr (q : List Agent) : (s.setTurns q).jbpr = s.jbpr := rfl
@[simp] theorem State.setTurns_jlen (q : List Agent) : (s.setTurns q).jlen = s.jlen := rfl
@[simp] theorem State.setTurns_cy (q : List Agent) : (s.setTurns q).cy = s.cy := rfl
@[simp] theorem State.setTurns_cx (q : List Agent) : (s.setTurns q).cx = s.cx := rfl
@[simp] theorem State.setTurns_errPlane (q : List Agent) : (s.setTurns q).errPlane = s.errPlane := rfl
@[simp] theorem State.setTurns_pk (q : List Agent) : (s.setTurns q).pk = s.pk := rfl
@[simp] theorem State.setTurns_pkn (q : List Agent) : (s.setTurns q).pkn = s.pkn := rfl
@[simp] theorem State.setTurns_draws (q : List Agent) : (s.setTurns q).draws = s.draws := rfl
@[simp] theorem State.setTurns_prog (q : List Agent) : (s.setTurns q).prog = s.prog := rfl
@[simp] theorem State.setTurns_turns (q : List Agent) : (s.setTurns q).turns = q := rfl
@[simp] theorem State.setTurns_vars (q : List Agent) : (s.setTurns q).vars = s.vars := rfl

/-! ## diffuse -/

@[simp] theorem State.diffuse_params (x y : Nat) (e : Int) : (s.diffuse x y e).params = s.params := rfl
@[simp] theorem State.diffuse_jobState (x y : Nat) (e : Int) : (s.diffuse x y e).jobState = s.jobState := rfl
@[simp] theorem State.diffuse_busy (x y : Nat) (e : Int) : (s.diffuse x y e).busy = s.busy := rfl
@[simp] theorem State.diffuse_rej (x y : Nat) (e : Int) : (s.diffuse x y e).rej = s.rej := rfl
@[simp] theorem State.diffuse_err (x y : Nat) (e : Int) : (s.diffuse x y e).err = s.err := rfl
@[simp] theorem State.diffuse_imgW (x y : Nat) (e : Int) : (s.diffuse x y e).imgW = s.imgW := rfl
@[simp] theorem State.diffuse_imgH (x y : Nat) (e : Int) : (s.diffuse x y e).imgH = s.imgH := rfl
@[simp] theorem State.diffuse_outLen (x y : Nat) (e : Int) : (s.diffuse x y e).outLen = s.outLen := rfl
@[simp] theorem State.diffuse_img (x y : Nat) (e : Int) : (s.diffuse x y e).img = s.img := rfl
@[simp] theorem State.diffuse_out (x y : Nat) (e : Int) : (s.diffuse x y e).out = s.out := rfl
@[simp] theorem State.diffuse_jw (x y : Nat) (e : Int) : (s.diffuse x y e).jw = s.jw := rfl
@[simp] theorem State.diffuse_jh (x y : Nat) (e : Int) : (s.diffuse x y e).jh = s.jh := rfl
@[simp] theorem State.diffuse_jbpr (x y : Nat) (e : Int) : (s.diffuse x y e).jbpr = s.jbpr := rfl
@[simp] theorem State.diffuse_jlen (x y : Nat) (e : Int) : (s.diffuse x y e).jlen = s.jlen := rfl
@[simp] theorem State.diffuse_cy (x y : Nat) (e : Int) : (s.diffuse x y e).cy = s.cy := rfl
@[simp] theorem State.diffuse_cx (x y : Nat) (e : Int) : (s.diffuse x y e).cx = s.cx := rfl
@[simp] theorem State.diffuse_errPlane (x y : Nat) (e : Int) : (s.diffuse x y e).errPlane = ErrPlane.diffuse s.errPlane s.jw.toNat s.jh.toNat x y e := rfl
@[simp] theorem State.diffuse_pk (x y : Nat) (e : Int) : (s.diffuse x y e).pk = s.pk := rfl
@[simp] theorem State.diffuse_pkn (x y : Nat) (e : Int) : (s.diffuse x y e).pkn = s.pkn := rfl
@[simp] theorem State.diffuse_draws (x y : Nat) (e : Int) : (s.diffuse x y e).draws = s.draws := rfl
@[simp] theorem State.diffuse_prog (x y : Nat) (e : Int) : (s.diffuse x y e).prog = s.prog := rfl
@[simp] theorem State.diffuse_turns (x y : Nat) (e : Int) : (s.diffuse x y e).turns = s.turns := rfl
@[simp] theorem State.diffuse_vars (x y : Nat) (e : Int) : (s.diffuse x y e).vars = s.vars := rfl

/-! ## writeImgW -/

@[simp] theorem State.writeImgW_params (v : Word) : (s.writeImgW v).params = s.params := rfl
@[simp] theorem State.writeImgW_jobState (v : Word) : (s.writeImgW v).jobState = s.jobState := rfl
@[simp] theorem State.writeImgW_busy (v : Word) : (s.writeImgW v).busy = s.busy := rfl
@[simp] theorem State.writeImgW_rej (v : Word) : (s.writeImgW v).rej = s.rejIfBusy := rfl
@[simp] theorem State.writeImgW_err (v : Word) : (s.writeImgW v).err = s.err := rfl
@[simp] theorem State.writeImgW_imgW (v : Word) : (s.writeImgW v).imgW = v.setWidth 16 := rfl
@[simp] theorem State.writeImgW_imgH (v : Word) : (s.writeImgW v).imgH = s.imgH := rfl
@[simp] theorem State.writeImgW_outLen (v : Word) : (s.writeImgW v).outLen = s.outLen := rfl
@[simp] theorem State.writeImgW_img (v : Word) : (s.writeImgW v).img = s.img := rfl
@[simp] theorem State.writeImgW_out (v : Word) : (s.writeImgW v).out = s.out := rfl
@[simp] theorem State.writeImgW_jw (v : Word) : (s.writeImgW v).jw = s.jw := rfl
@[simp] theorem State.writeImgW_jh (v : Word) : (s.writeImgW v).jh = s.jh := rfl
@[simp] theorem State.writeImgW_jbpr (v : Word) : (s.writeImgW v).jbpr = s.jbpr := rfl
@[simp] theorem State.writeImgW_jlen (v : Word) : (s.writeImgW v).jlen = s.jlen := rfl
@[simp] theorem State.writeImgW_cy (v : Word) : (s.writeImgW v).cy = s.cy := rfl
@[simp] theorem State.writeImgW_cx (v : Word) : (s.writeImgW v).cx = s.cx := rfl
@[simp] theorem State.writeImgW_errPlane (v : Word) : (s.writeImgW v).errPlane = s.errPlane := rfl
@[simp] theorem State.writeImgW_pk (v : Word) : (s.writeImgW v).pk = s.pk := rfl
@[simp] theorem State.writeImgW_pkn (v : Word) : (s.writeImgW v).pkn = s.pkn := rfl
@[simp] theorem State.writeImgW_draws (v : Word) : (s.writeImgW v).draws = s.draws := rfl
@[simp] theorem State.writeImgW_prog (v : Word) : (s.writeImgW v).prog = s.prog := rfl
@[simp] theorem State.writeImgW_turns (v : Word) : (s.writeImgW v).turns = s.turns := rfl
@[simp] theorem State.writeImgW_vars (v : Word) : (s.writeImgW v).vars = s.vars := rfl

/-! ## writeImgH -/

@[simp] theorem State.writeImgH_params (v : Word) : (s.writeImgH v).params = s.params := rfl
@[simp] theorem State.writeImgH_jobState (v : Word) : (s.writeImgH v).jobState = s.jobState := rfl
@[simp] theorem State.writeImgH_busy (v : Word) : (s.writeImgH v).busy = s.busy := rfl
@[simp] theorem State.writeImgH_rej (v : Word) : (s.writeImgH v).rej = s.rejIfBusy := rfl
@[simp] theorem State.writeImgH_err (v : Word) : (s.writeImgH v).err = s.err := rfl
@[simp] theorem State.writeImgH_imgW (v : Word) : (s.writeImgH v).imgW = s.imgW := rfl
@[simp] theorem State.writeImgH_imgH (v : Word) : (s.writeImgH v).imgH = v.setWidth 16 := rfl
@[simp] theorem State.writeImgH_outLen (v : Word) : (s.writeImgH v).outLen = s.outLen := rfl
@[simp] theorem State.writeImgH_img (v : Word) : (s.writeImgH v).img = s.img := rfl
@[simp] theorem State.writeImgH_out (v : Word) : (s.writeImgH v).out = s.out := rfl
@[simp] theorem State.writeImgH_jw (v : Word) : (s.writeImgH v).jw = s.jw := rfl
@[simp] theorem State.writeImgH_jh (v : Word) : (s.writeImgH v).jh = s.jh := rfl
@[simp] theorem State.writeImgH_jbpr (v : Word) : (s.writeImgH v).jbpr = s.jbpr := rfl
@[simp] theorem State.writeImgH_jlen (v : Word) : (s.writeImgH v).jlen = s.jlen := rfl
@[simp] theorem State.writeImgH_cy (v : Word) : (s.writeImgH v).cy = s.cy := rfl
@[simp] theorem State.writeImgH_cx (v : Word) : (s.writeImgH v).cx = s.cx := rfl
@[simp] theorem State.writeImgH_errPlane (v : Word) : (s.writeImgH v).errPlane = s.errPlane := rfl
@[simp] theorem State.writeImgH_pk (v : Word) : (s.writeImgH v).pk = s.pk := rfl
@[simp] theorem State.writeImgH_pkn (v : Word) : (s.writeImgH v).pkn = s.pkn := rfl
@[simp] theorem State.writeImgH_draws (v : Word) : (s.writeImgH v).draws = s.draws := rfl
@[simp] theorem State.writeImgH_prog (v : Word) : (s.writeImgH v).prog = s.prog := rfl
@[simp] theorem State.writeImgH_turns (v : Word) : (s.writeImgH v).turns = s.turns := rfl
@[simp] theorem State.writeImgH_vars (v : Word) : (s.writeImgH v).vars = s.vars := rfl

/-! ## complete -/

@[simp] theorem State.complete_params : s.complete.params = s.params := rfl
@[simp] theorem State.complete_jobState : s.complete.jobState = .done := rfl
@[simp] theorem State.complete_busy : s.complete.busy = false := rfl
@[simp] theorem State.complete_rej : s.complete.rej = s.rej := rfl
@[simp] theorem State.complete_err : s.complete.err = s.err := rfl
@[simp] theorem State.complete_imgW : s.complete.imgW = s.imgW := rfl
@[simp] theorem State.complete_imgH : s.complete.imgH = s.imgH := rfl
@[simp] theorem State.complete_outLen : s.complete.outLen = s.jlen := rfl
@[simp] theorem State.complete_img : s.complete.img = s.img := rfl
@[simp] theorem State.complete_out : s.complete.out = s.out := rfl
@[simp] theorem State.complete_jw : s.complete.jw = s.jw := rfl
@[simp] theorem State.complete_jh : s.complete.jh = s.jh := rfl
@[simp] theorem State.complete_jbpr : s.complete.jbpr = s.jbpr := rfl
@[simp] theorem State.complete_jlen : s.complete.jlen = s.jlen := rfl
@[simp] theorem State.complete_cy : s.complete.cy = s.cy := rfl
@[simp] theorem State.complete_cx : s.complete.cx = s.cx := rfl
@[simp] theorem State.complete_errPlane : s.complete.errPlane = s.errPlane := rfl
@[simp] theorem State.complete_pk : s.complete.pk = s.pk := rfl
@[simp] theorem State.complete_pkn : s.complete.pkn = s.pkn := rfl
@[simp] theorem State.complete_draws : s.complete.draws = s.draws := rfl
@[simp] theorem State.complete_prog : s.complete.prog = s.prog := rfl
@[simp] theorem State.complete_turns : s.complete.turns = s.turns := rfl
@[simp] theorem State.complete_vars : s.complete.vars = s.vars := rfl

/-! ## drawWord -/

@[simp] theorem State.drawWord_params : s.drawWord.2.params = s.params := rfl
@[simp] theorem State.drawWord_jobState : s.drawWord.2.jobState = s.jobState := rfl
@[simp] theorem State.drawWord_busy : s.drawWord.2.busy = s.busy := rfl
@[simp] theorem State.drawWord_rej : s.drawWord.2.rej = s.rej := rfl
@[simp] theorem State.drawWord_err : s.drawWord.2.err = s.err := rfl
@[simp] theorem State.drawWord_imgW : s.drawWord.2.imgW = s.imgW := rfl
@[simp] theorem State.drawWord_imgH : s.drawWord.2.imgH = s.imgH := rfl
@[simp] theorem State.drawWord_outLen : s.drawWord.2.outLen = s.outLen := rfl
@[simp] theorem State.drawWord_img : s.drawWord.2.img = s.img := rfl
@[simp] theorem State.drawWord_out : s.drawWord.2.out = s.out := rfl
@[simp] theorem State.drawWord_jw : s.drawWord.2.jw = s.jw := rfl
@[simp] theorem State.drawWord_jh : s.drawWord.2.jh = s.jh := rfl
@[simp] theorem State.drawWord_jbpr : s.drawWord.2.jbpr = s.jbpr := rfl
@[simp] theorem State.drawWord_jlen : s.drawWord.2.jlen = s.jlen := rfl
@[simp] theorem State.drawWord_cy : s.drawWord.2.cy = s.cy := rfl
@[simp] theorem State.drawWord_cx : s.drawWord.2.cx = s.cx := rfl
@[simp] theorem State.drawWord_errPlane : s.drawWord.2.errPlane = s.errPlane := rfl
@[simp] theorem State.drawWord_pk : s.drawWord.2.pk = s.pk := rfl
@[simp] theorem State.drawWord_pkn : s.drawWord.2.pkn = s.pkn := rfl
@[simp] theorem State.drawWord_draws : s.drawWord.2.draws = s.draws + 1 := rfl
@[simp] theorem State.drawWord_prog : s.drawWord.2.prog = s.prog := rfl
@[simp] theorem State.drawWord_turns : s.drawWord.2.turns = s.turns := rfl
@[simp] theorem State.drawWord_vars : s.drawWord.2.vars = s.vars := rfl

/-! ## drawByte -/

@[simp] theorem State.drawByte_params : s.drawByte.2.params = s.params := rfl
@[simp] theorem State.drawByte_jobState : s.drawByte.2.jobState = s.jobState := rfl
@[simp] theorem State.drawByte_busy : s.drawByte.2.busy = s.busy := rfl
@[simp] theorem State.drawByte_rej : s.drawByte.2.rej = s.rej := rfl
@[simp] theorem State.drawByte_err : s.drawByte.2.err = s.err := rfl
@[simp] theorem State.drawByte_imgW : s.drawByte.2.imgW = s.imgW := rfl
@[simp] theorem State.drawByte_imgH : s.drawByte.2.imgH = s.imgH := rfl
@[simp] theorem State.drawByte_outLen : s.drawByte.2.outLen = s.outLen := rfl
@[simp] theorem State.drawByte_img : s.drawByte.2.img = s.img := rfl
@[simp] theorem State.drawByte_out : s.drawByte.2.out = s.out := rfl
@[simp] theorem State.drawByte_jw : s.drawByte.2.jw = s.jw := rfl
@[simp] theorem State.drawByte_jh : s.drawByte.2.jh = s.jh := rfl
@[simp] theorem State.drawByte_jbpr : s.drawByte.2.jbpr = s.jbpr := rfl
@[simp] theorem State.drawByte_jlen : s.drawByte.2.jlen = s.jlen := rfl
@[simp] theorem State.drawByte_cy : s.drawByte.2.cy = s.cy := rfl
@[simp] theorem State.drawByte_cx : s.drawByte.2.cx = s.cx := rfl
@[simp] theorem State.drawByte_errPlane : s.drawByte.2.errPlane = s.errPlane := rfl
@[simp] theorem State.drawByte_pk : s.drawByte.2.pk = s.pk := rfl
@[simp] theorem State.drawByte_pkn : s.drawByte.2.pkn = s.pkn := rfl
@[simp] theorem State.drawByte_draws : s.drawByte.2.draws = s.draws + 1 := rfl
@[simp] theorem State.drawByte_prog : s.drawByte.2.prog = s.prog := rfl
@[simp] theorem State.drawByte_turns : s.drawByte.2.turns = s.turns := rfl
@[simp] theorem State.drawByte_vars : s.drawByte.2.vars = s.vars := rfl

/-! ## withFetchWord -/

@[simp] theorem State.withFetchWord_params (n w : Nat) : (s.withFetchWord n w).params = s.params := rfl
@[simp] theorem State.withFetchWord_jobState (n w : Nat) : (s.withFetchWord n w).jobState = s.jobState := rfl
@[simp] theorem State.withFetchWord_busy (n w : Nat) : (s.withFetchWord n w).busy = s.busy := rfl
@[simp] theorem State.withFetchWord_rej (n w : Nat) : (s.withFetchWord n w).rej = s.rej := rfl
@[simp] theorem State.withFetchWord_err (n w : Nat) : (s.withFetchWord n w).err = s.err := rfl
@[simp] theorem State.withFetchWord_imgW (n w : Nat) : (s.withFetchWord n w).imgW = s.imgW := rfl
@[simp] theorem State.withFetchWord_imgH (n w : Nat) : (s.withFetchWord n w).imgH = s.imgH := rfl
@[simp] theorem State.withFetchWord_outLen (n w : Nat) : (s.withFetchWord n w).outLen = s.outLen := rfl
@[simp] theorem State.withFetchWord_img (n w : Nat) : (s.withFetchWord n w).img = s.img := rfl
@[simp] theorem State.withFetchWord_out (n w : Nat) : (s.withFetchWord n w).out = s.out := rfl
@[simp] theorem State.withFetchWord_jw (n w : Nat) : (s.withFetchWord n w).jw = s.jw := rfl
@[simp] theorem State.withFetchWord_jh (n w : Nat) : (s.withFetchWord n w).jh = s.jh := rfl
@[simp] theorem State.withFetchWord_jbpr (n w : Nat) : (s.withFetchWord n w).jbpr = s.jbpr := rfl
@[simp] theorem State.withFetchWord_jlen (n w : Nat) : (s.withFetchWord n w).jlen = s.jlen := rfl
@[simp] theorem State.withFetchWord_cy (n w : Nat) : (s.withFetchWord n w).cy = s.cy := rfl
@[simp] theorem State.withFetchWord_cx (n w : Nat) : (s.withFetchWord n w).cx = s.cx := rfl
@[simp] theorem State.withFetchWord_errPlane (n w : Nat) : (s.withFetchWord n w).errPlane = s.errPlane := rfl
@[simp] theorem State.withFetchWord_pk (n w : Nat) : (s.withFetchWord n w).pk = s.pk := rfl
@[simp] theorem State.withFetchWord_pkn (n w : Nat) : (s.withFetchWord n w).pkn = s.pkn := rfl
@[simp] theorem State.withFetchWord_draws (n w : Nat) : (s.withFetchWord n w).draws = s.draws := rfl
@[simp] theorem State.withFetchWord_prog (n w : Nat) : (s.withFetchWord n w).prog = .wr 4 0 (tableWord n w) :: s.prog := rfl
@[simp] theorem State.withFetchWord_turns (n w : Nat) : (s.withFetchWord n w).turns = .host :: s.turns := rfl
@[simp] theorem State.withFetchWord_vars (n w : Nat) : (s.withFetchWord n w).vars = s.vars := rfl

/-! ## pack -/

@[simp] theorem State.pack_params (x y : Nat) (w : Bool) : (s.pack x y w).params = s.params := by
  dsimp only [State.pack]; split <;> rfl
@[simp] theorem State.pack_jobState (x y : Nat) (w : Bool) : (s.pack x y w).jobState = s.jobState := by
  dsimp only [State.pack]; split <;> rfl
@[simp] theorem State.pack_busy (x y : Nat) (w : Bool) : (s.pack x y w).busy = s.busy := by
  simp [State.busy]
@[simp] theorem State.pack_rej (x y : Nat) (w : Bool) : (s.pack x y w).rej = s.rej := by
  dsimp only [State.pack]; split <;> rfl
@[simp] theorem State.pack_err (x y : Nat) (w : Bool) : (s.pack x y w).err = s.err := by
  dsimp only [State.pack]; split <;> rfl
@[simp] theorem State.pack_imgW (x y : Nat) (w : Bool) : (s.pack x y w).imgW = s.imgW := by
  dsimp only [State.pack]; split <;> rfl
@[simp] theorem State.pack_imgH (x y : Nat) (w : Bool) : (s.pack x y w).imgH = s.imgH := by
  dsimp only [State.pack]; split <;> rfl
@[simp] theorem State.pack_outLen (x y : Nat) (w : Bool) : (s.pack x y w).outLen = s.outLen := by
  dsimp only [State.pack]; split <;> rfl
@[simp] theorem State.pack_img (x y : Nat) (w : Bool) : (s.pack x y w).img = s.img := by
  dsimp only [State.pack]; split <;> rfl
@[simp] theorem State.pack_jw (x y : Nat) (w : Bool) : (s.pack x y w).jw = s.jw := by
  dsimp only [State.pack]; split <;> rfl
@[simp] theorem State.pack_jh (x y : Nat) (w : Bool) : (s.pack x y w).jh = s.jh := by
  dsimp only [State.pack]; split <;> rfl
@[simp] theorem State.pack_jbpr (x y : Nat) (w : Bool) : (s.pack x y w).jbpr = s.jbpr := by
  dsimp only [State.pack]; split <;> rfl
@[simp] theorem State.pack_jlen (x y : Nat) (w : Bool) : (s.pack x y w).jlen = s.jlen := by
  dsimp only [State.pack]; split <;> rfl
@[simp] theorem State.pack_cy (x y : Nat) (w : Bool) : (s.pack x y w).cy = s.cy := by
  dsimp only [State.pack]; split <;> rfl
@[simp] theorem State.pack_cx (x y : Nat) (w : Bool) : (s.pack x y w).cx = s.cx := by
  dsimp only [State.pack]; split <;> rfl
@[simp] theorem State.pack_errPlane (x y : Nat) (w : Bool) : (s.pack x y w).errPlane = s.errPlane := by
  dsimp only [State.pack]; split <;> rfl
@[simp] theorem State.pack_draws (x y : Nat) (w : Bool) : (s.pack x y w).draws = s.draws := by
  dsimp only [State.pack]; split <;> rfl
@[simp] theorem State.pack_prog (x y : Nat) (w : Bool) : (s.pack x y w).prog = s.prog := by
  dsimp only [State.pack]; split <;> rfl
@[simp] theorem State.pack_turns (x y : Nat) (w : Bool) : (s.pack x y w).turns = s.turns := by
  dsimp only [State.pack]; split <;> rfl
@[simp] theorem State.pack_vars (x y : Nat) (w : Bool) : (s.pack x y w).vars = s.vars := by
  dsimp only [State.pack]; split <;> rfl

/-! ## advance -/

@[simp] theorem State.advance_params (x y : Nat) : (s.advance x y).params = s.params := by
  unfold State.advance; split <;> rfl
@[simp] theorem State.advance_jobState (x y : Nat) : (s.advance x y).jobState = s.jobState := by
  unfold State.advance; split <;> rfl
@[simp] theorem State.advance_busy (x y : Nat) : (s.advance x y).busy = s.busy := by
  simp [State.busy]
@[simp] theorem State.advance_rej (x y : Nat) : (s.advance x y).rej = s.rej := by
  unfold State.advance; split <;> rfl
@[simp] theorem State.advance_err (x y : Nat) : (s.advance x y).err = s.err := by
  unfold State.advance; split <;> rfl
@[simp] theorem State.advance_imgW (x y : Nat) : (s.advance x y).imgW = s.imgW := by
  unfold State.advance; split <;> rfl
@[simp] theorem State.advance_imgH (x y : Nat) : (s.advance x y).imgH = s.imgH := by
  unfold State.advance; split <;> rfl
@[simp] theorem State.advance_outLen (x y : Nat) : (s.advance x y).outLen = s.outLen := by
  unfold State.advance; split <;> rfl
@[simp] theorem State.advance_img (x y : Nat) : (s.advance x y).img = s.img := by
  unfold State.advance; split <;> rfl
@[simp] theorem State.advance_out (x y : Nat) : (s.advance x y).out = s.out := by
  unfold State.advance; split <;> rfl
@[simp] theorem State.advance_jw (x y : Nat) : (s.advance x y).jw = s.jw := by
  unfold State.advance; split <;> rfl
@[simp] theorem State.advance_jh (x y : Nat) : (s.advance x y).jh = s.jh := by
  unfold State.advance; split <;> rfl
@[simp] theorem State.advance_jbpr (x y : Nat) : (s.advance x y).jbpr = s.jbpr := by
  unfold State.advance; split <;> rfl
@[simp] theorem State.advance_jlen (x y : Nat) : (s.advance x y).jlen = s.jlen := by
  unfold State.advance; split <;> rfl
@[simp] theorem State.advance_errPlane (x y : Nat) : (s.advance x y).errPlane = s.errPlane := by
  unfold State.advance; split <;> rfl
@[simp] theorem State.advance_pk (x y : Nat) : (s.advance x y).pk = s.pk := by
  unfold State.advance; split <;> rfl
@[simp] theorem State.advance_pkn (x y : Nat) : (s.advance x y).pkn = s.pkn := by
  unfold State.advance; split <;> rfl
@[simp] theorem State.advance_draws (x y : Nat) : (s.advance x y).draws = s.draws := by
  unfold State.advance; split <;> rfl
@[simp] theorem State.advance_prog (x y : Nat) : (s.advance x y).prog = s.prog := by
  unfold State.advance; split <;> rfl
@[simp] theorem State.advance_turns (x y : Nat) : (s.advance x y).turns = s.turns := by
  unfold State.advance; split <;> rfl
@[simp] theorem State.advance_vars (x y : Nat) : (s.advance x y).vars = s.vars := by
  unfold State.advance; split <;> rfl

/-! ## writeImg -/

@[simp] theorem State.writeImg_params (a : Nat) (v : Word) : (s.writeImg a v).params = s.params := by
  unfold State.writeImg; split <;> rfl
@[simp] theorem State.writeImg_jobState (a : Nat) (v : Word) : (s.writeImg a v).jobState = s.jobState := by
  unfold State.writeImg; split <;> rfl
@[simp] theorem State.writeImg_busy (a : Nat) (v : Word) : (s.writeImg a v).busy = s.busy := by
  simp [State.busy]
@[simp] theorem State.writeImg_err (a : Nat) (v : Word) : (s.writeImg a v).err = s.err := by
  unfold State.writeImg; split <;> rfl
@[simp] theorem State.writeImg_imgW (a : Nat) (v : Word) : (s.writeImg a v).imgW = s.imgW := by
  unfold State.writeImg; split <;> rfl
@[simp] theorem State.writeImg_imgH (a : Nat) (v : Word) : (s.writeImg a v).imgH = s.imgH := by
  unfold State.writeImg; split <;> rfl
@[simp] theorem State.writeImg_outLen (a : Nat) (v : Word) : (s.writeImg a v).outLen = s.outLen := by
  unfold State.writeImg; split <;> rfl
@[simp] theorem State.writeImg_out (a : Nat) (v : Word) : (s.writeImg a v).out = s.out := by
  unfold State.writeImg; split <;> rfl
@[simp] theorem State.writeImg_jw (a : Nat) (v : Word) : (s.writeImg a v).jw = s.jw := by
  unfold State.writeImg; split <;> rfl
@[simp] theorem State.writeImg_jh (a : Nat) (v : Word) : (s.writeImg a v).jh = s.jh := by
  unfold State.writeImg; split <;> rfl
@[simp] theorem State.writeImg_jbpr (a : Nat) (v : Word) : (s.writeImg a v).jbpr = s.jbpr := by
  unfold State.writeImg; split <;> rfl
@[simp] theorem State.writeImg_jlen (a : Nat) (v : Word) : (s.writeImg a v).jlen = s.jlen := by
  unfold State.writeImg; split <;> rfl
@[simp] theorem State.writeImg_cy (a : Nat) (v : Word) : (s.writeImg a v).cy = s.cy := by
  unfold State.writeImg; split <;> rfl
@[simp] theorem State.writeImg_cx (a : Nat) (v : Word) : (s.writeImg a v).cx = s.cx := by
  unfold State.writeImg; split <;> rfl
@[simp] theorem State.writeImg_errPlane (a : Nat) (v : Word) : (s.writeImg a v).errPlane = s.errPlane := by
  unfold State.writeImg; split <;> rfl
@[simp] theorem State.writeImg_pk (a : Nat) (v : Word) : (s.writeImg a v).pk = s.pk := by
  unfold State.writeImg; split <;> rfl
@[simp] theorem State.writeImg_pkn (a : Nat) (v : Word) : (s.writeImg a v).pkn = s.pkn := by
  unfold State.writeImg; split <;> rfl
@[simp] theorem State.writeImg_draws (a : Nat) (v : Word) : (s.writeImg a v).draws = s.draws := by
  unfold State.writeImg; split <;> rfl
@[simp] theorem State.writeImg_prog (a : Nat) (v : Word) : (s.writeImg a v).prog = s.prog := by
  unfold State.writeImg; split <;> rfl
@[simp] theorem State.writeImg_turns (a : Nat) (v : Word) : (s.writeImg a v).turns = s.turns := by
  unfold State.writeImg; split <;> rfl
@[simp] theorem State.writeImg_vars (a : Nat) (v : Word) : (s.writeImg a v).vars = s.vars := by
  unfold State.writeImg; split <;> rfl

/-! ## readImg -/

@[simp] theorem State.readImg_params (k : Nat) : (s.readImg k).2.params = s.params := by
  unfold State.readImg; split <;> rfl
@[simp] theorem State.readImg_jobState (k : Nat) : (s.readImg k).2.jobState = s.jobState := by
  unfold State.readImg; split <;> rfl
@[simp] theorem State.readImg_busy (k : Nat) : (s.readImg k).2.busy = s.busy := by
  simp [State.busy]
@[simp] theorem State.readImg_rej (k : Nat) : (s.readImg k).2.rej = s.rej := by
  unfold State.readImg; split <;> rfl
@[simp] theorem State.readImg_err (k : Nat) : (s.readImg k).2.err = s.err := by
  unfold State.readImg; split <;> rfl
@[simp] theorem State.readImg_imgW (k : Nat) : (s.readImg k).2.imgW = s.imgW := by
  unfold State.readImg; split <;> rfl
@[simp] theorem State.readImg_imgH (k : Nat) : (s.readImg k).2.imgH = s.imgH := by
  unfold State.readImg; split <;> rfl
@[simp] theorem State.readImg_outLen (k : Nat) : (s.readImg k).2.outLen = s.outLen := by
  unfold State.readImg; split <;> rfl
@[simp] theorem State.readImg_img (k : Nat) : (s.readImg k).2.img = s.img := by
  unfold State.readImg; split <;> rfl
@[simp] theorem State.readImg_out (k : Nat) : (s.readImg k).2.out = s.out := by
  unfold State.readImg; split <;> rfl
@[simp] theorem State.readImg_jw (k : Nat) : (s.readImg k).2.jw = s.jw := by
  unfold State.readImg; split <;> rfl
@[simp] theorem State.readImg_jh (k : Nat) : (s.readImg k).2.jh = s.jh := by
  unfold State.readImg; split <;> rfl
@[simp] theorem State.readImg_jbpr (k : Nat) : (s.readImg k).2.jbpr = s.jbpr := by
  unfold State.readImg; split <;> rfl
@[simp] theorem State.readImg_jlen (k : Nat) : (s.readImg k).2.jlen = s.jlen := by
  unfold State.readImg; split <;> rfl
@[simp] theorem State.readImg_cy (k : Nat) : (s.readImg k).2.cy = s.cy := by
  unfold State.readImg; split <;> rfl
@[simp] theorem State.readImg_cx (k : Nat) : (s.readImg k).2.cx = s.cx := by
  unfold State.readImg; split <;> rfl
@[simp] theorem State.readImg_errPlane (k : Nat) : (s.readImg k).2.errPlane = s.errPlane := by
  unfold State.readImg; split <;> rfl
@[simp] theorem State.readImg_pk (k : Nat) : (s.readImg k).2.pk = s.pk := by
  unfold State.readImg; split <;> rfl
@[simp] theorem State.readImg_pkn (k : Nat) : (s.readImg k).2.pkn = s.pkn := by
  unfold State.readImg; split <;> rfl
@[simp] theorem State.readImg_prog (k : Nat) : (s.readImg k).2.prog = s.prog := by
  unfold State.readImg; split <;> rfl
@[simp] theorem State.readImg_turns (k : Nat) : (s.readImg k).2.turns = s.turns := by
  unfold State.readImg; split <;> rfl
@[simp] theorem State.readImg_vars (k : Nat) : (s.readImg k).2.vars = s.vars := by
  unfold State.readImg; split <;> rfl

/-! ## readOutByte -/

@[simp] theorem State.readOutByte_params (i : Nat) : (s.readOutByte i).2.params = s.params := by
  unfold State.readOutByte; split
  · rfl
  · split <;> rfl
@[simp] theorem State.readOutByte_jobState (i : Nat) : (s.readOutByte i).2.jobState = s.jobState := by
  unfold State.readOutByte; split
  · rfl
  · split <;> rfl
@[simp] theorem State.readOutByte_busy (i : Nat) : (s.readOutByte i).2.busy = s.busy := by
  simp [State.busy]
@[simp] theorem State.readOutByte_rej (i : Nat) : (s.readOutByte i).2.rej = s.rej := by
  unfold State.readOutByte; split
  · rfl
  · split <;> rfl
@[simp] theorem State.readOutByte_err (i : Nat) : (s.readOutByte i).2.err = s.err := by
  unfold State.readOutByte; split
  · rfl
  · split <;> rfl
@[simp] theorem State.readOutByte_imgW (i : Nat) : (s.readOutByte i).2.imgW = s.imgW := by
  unfold State.readOutByte; split
  · rfl
  · split <;> rfl
@[simp] theorem State.readOutByte_imgH (i : Nat) : (s.readOutByte i).2.imgH = s.imgH := by
  unfold State.readOutByte; split
  · rfl
  · split <;> rfl
@[simp] theorem State.readOutByte_outLen (i : Nat) : (s.readOutByte i).2.outLen = s.outLen := by
  unfold State.readOutByte; split
  · rfl
  · split <;> rfl
@[simp] theorem State.readOutByte_img (i : Nat) : (s.readOutByte i).2.img = s.img := by
  unfold State.readOutByte; split
  · rfl
  · split <;> rfl
@[simp] theorem State.readOutByte_out (i : Nat) : (s.readOutByte i).2.out = s.out := by
  unfold State.readOutByte; split
  · rfl
  · split <;> rfl
@[simp] theorem State.readOutByte_jw (i : Nat) : (s.readOutByte i).2.jw = s.jw := by
  unfold State.readOutByte; split
  · rfl
  · split <;> rfl
@[simp] theorem State.readOutByte_jh (i : Nat) : (s.readOutByte i).2.jh = s.jh := by
  unfold State.readOutByte; split
  · rfl
  · split <;> rfl
@[simp] theorem State.readOutByte_jbpr (i : Nat) : (s.readOutByte i).2.jbpr = s.jbpr := by
  unfold State.readOutByte; split
  · rfl
  · split <;> rfl
@[simp] theorem State.readOutByte_jlen (i : Nat) : (s.readOutByte i).2.jlen = s.jlen := by
  unfold State.readOutByte; split
  · rfl
  · split <;> rfl
@[simp] theorem State.readOutByte_cy (i : Nat) : (s.readOutByte i).2.cy = s.cy := by
  unfold State.readOutByte; split
  · rfl
  · split <;> rfl
@[simp] theorem State.readOutByte_cx (i : Nat) : (s.readOutByte i).2.cx = s.cx := by
  unfold State.readOutByte; split
  · rfl
  · split <;> rfl
@[simp] theorem State.readOutByte_errPlane (i : Nat) : (s.readOutByte i).2.errPlane = s.errPlane := by
  unfold State.readOutByte; split
  · rfl
  · split <;> rfl
@[simp] theorem State.readOutByte_pk (i : Nat) : (s.readOutByte i).2.pk = s.pk := by
  unfold State.readOutByte; split
  · rfl
  · split <;> rfl
@[simp] theorem State.readOutByte_pkn (i : Nat) : (s.readOutByte i).2.pkn = s.pkn := by
  unfold State.readOutByte; split
  · rfl
  · split <;> rfl
@[simp] theorem State.readOutByte_prog (i : Nat) : (s.readOutByte i).2.prog = s.prog := by
  unfold State.readOutByte; split
  · rfl
  · split <;> rfl
@[simp] theorem State.readOutByte_turns (i : Nat) : (s.readOutByte i).2.turns = s.turns := by
  unfold State.readOutByte; split
  · rfl
  · split <;> rfl
@[simp] theorem State.readOutByte_vars (i : Nat) : (s.readOutByte i).2.vars = s.vars := by
  unfold State.readOutByte; split
  · rfl
  · split <;> rfl

/-! ## ditherPack and jobStep -/

@[simp] theorem State.ditherPack_params (x y : Nat) (p : Word) : (s.ditherPack x y p).params = s.params := by
  simp [State.ditherPack]
@[simp] theorem State.jobStep_params : s.jobStep.params = s.params := by
  simp [State.jobStep]
@[simp] theorem State.ditherPack_jobState (x y : Nat) (p : Word) : (s.ditherPack x y p).jobState = s.jobState := by
  simp [State.ditherPack]
@[simp] theorem State.ditherPack_busy (x y : Nat) (p : Word) : (s.ditherPack x y p).busy = s.busy := by
  simp [State.busy]
@[simp] theorem State.jobStep_jobState : s.jobStep.jobState = s.jobState := by
  simp [State.jobStep]
@[simp] theorem State.jobStep_busy : s.jobStep.busy = s.busy := by
  simp [State.busy]
@[simp] theorem State.ditherPack_rej (x y : Nat) (p : Word) : (s.ditherPack x y p).rej = s.rej := by
  simp [State.ditherPack]
@[simp] theorem State.jobStep_rej : s.jobStep.rej = s.rej := by
  simp [State.jobStep]
@[simp] theorem State.ditherPack_err (x y : Nat) (p : Word) : (s.ditherPack x y p).err = s.err := by
  simp [State.ditherPack]
@[simp] theorem State.jobStep_err : s.jobStep.err = s.err := by
  simp [State.jobStep]
@[simp] theorem State.ditherPack_imgW (x y : Nat) (p : Word) : (s.ditherPack x y p).imgW = s.imgW := by
  simp [State.ditherPack]
@[simp] theorem State.jobStep_imgW : s.jobStep.imgW = s.imgW := by
  simp [State.jobStep]
@[simp] theorem State.ditherPack_imgH (x y : Nat) (p : Word) : (s.ditherPack x y p).imgH = s.imgH := by
  simp [State.ditherPack]
@[simp] theorem State.jobStep_imgH : s.jobStep.imgH = s.imgH := by
  simp [State.jobStep]
@[simp] theorem State.ditherPack_outLen (x y : Nat) (p : Word) : (s.ditherPack x y p).outLen = s.outLen := by
  simp [State.ditherPack]
@[simp] theorem State.jobStep_outLen : s.jobStep.outLen = s.outLen := by
  simp [State.jobStep]
@[simp] theorem State.ditherPack_img (x y : Nat) (p : Word) : (s.ditherPack x y p).img = s.img := by
  simp [State.ditherPack]
@[simp] theorem State.jobStep_img : s.jobStep.img = s.img := by
  simp [State.jobStep]
@[simp] theorem State.ditherPack_jw (x y : Nat) (p : Word) : (s.ditherPack x y p).jw = s.jw := by
  simp [State.ditherPack]
@[simp] theorem State.jobStep_jw : s.jobStep.jw = s.jw := by
  simp [State.jobStep]
@[simp] theorem State.ditherPack_jh (x y : Nat) (p : Word) : (s.ditherPack x y p).jh = s.jh := by
  simp [State.ditherPack]
@[simp] theorem State.jobStep_jh : s.jobStep.jh = s.jh := by
  simp [State.jobStep]
@[simp] theorem State.ditherPack_jbpr (x y : Nat) (p : Word) : (s.ditherPack x y p).jbpr = s.jbpr := by
  simp [State.ditherPack]
@[simp] theorem State.jobStep_jbpr : s.jobStep.jbpr = s.jbpr := by
  simp [State.jobStep]
@[simp] theorem State.ditherPack_jlen (x y : Nat) (p : Word) : (s.ditherPack x y p).jlen = s.jlen := by
  simp [State.ditherPack]
@[simp] theorem State.jobStep_jlen : s.jobStep.jlen = s.jlen := by
  simp [State.jobStep]
@[simp] theorem State.ditherPack_draws (x y : Nat) (p : Word) : (s.ditherPack x y p).draws = s.draws := by
  simp [State.ditherPack]
@[simp] theorem State.ditherPack_prog (x y : Nat) (p : Word) : (s.ditherPack x y p).prog = s.prog := by
  simp [State.ditherPack]
@[simp] theorem State.jobStep_prog : s.jobStep.prog = s.prog := by
  simp [State.jobStep]
@[simp] theorem State.ditherPack_turns (x y : Nat) (p : Word) : (s.ditherPack x y p).turns = s.turns := by
  simp [State.ditherPack]
@[simp] theorem State.jobStep_turns : s.jobStep.turns = s.turns := by
  simp [State.jobStep]
@[simp] theorem State.ditherPack_vars (x y : Nat) (p : Word) : (s.ditherPack x y p).vars = s.vars := by
  simp [State.ditherPack]
@[simp] theorem State.jobStep_vars : s.jobStep.vars = s.vars := by
  simp [State.jobStep]

end Sys2Proof.Machine
end

