-- ==== Sys2Proof/Laws/Bus.lean ====
section
/-! SUPPORT. What a command and a host access can do, said once: the inversion lemmas the invariants cite. -/

namespace Sys2Proof.Machine

/-! ## The address map -/

theorem imgCap_le (p : Config.Params) : p.imgCap ≤ 2 ^ 20 := by
  have h := p.imgFits
  simp only [Config.Raw.imgCapOk, decide_eq_true_eq] at h
  exact h.2

theorem outCap_le (p : Config.Params) : p.outCap ≤ 2 ^ 22 := by
  have h := p.outFits
  simp only [Config.Raw.outCapOk, decide_eq_true_eq] at h
  exact h.2

theorem regionOf_reg {p : Config.Params} {a : Nat} : regionOf p a = .reg ↔ a < 0x40 := by
  unfold regionOf
  split
  · simp [*]
  · split
    · simp [*]
    · split <;> simp [*]

theorem regionOf_img {p : Config.Params} {a : Nat} :
    regionOf p a = .img ↔ Config.imgBase ≤ a ∧ a < Config.imgBase + 4 * p.imgCap := by
  unfold regionOf
  split
  · simp [Config.imgBase]; omega
  · split
    · simp [*]
    · split <;> simp [*]

theorem regionOf_out {p : Config.Params} {a : Nat} :
    regionOf p a = .out ↔ Config.outBase ≤ a ∧ a < Config.outBase + p.outCap := by
  have h := imgCap_le p
  unfold regionOf
  split
  · simp [Config.outBase]; omega
  · split
    · simp [Config.outBase, Config.imgBase] at *; omega
    · split <;> simp [*]

/-! ## Reads -/

/-- A job's or the host's read of a word: the word that stands there, or a draw. -/
theorem State.readImg_cases (s : State) (k : Nat) :
    (∃ p, s.imgWord k = some p ∧ s.readImg k = (p, s))
      ∨ (s.imgWord k = none ∧ s.readImg k = (Config.freeWord s.draws, { s with draws := s.draws + 1 })) := by
  cases h : s.imgWord k with
  | some p => exact .inl ⟨p, rfl, by simp [State.readImg, h]⟩
  | none => exact .inr ⟨rfl, by simp [State.readImg, h, State.drawWord]⟩

/-- A host read of a byte of OUT: the byte that stands there, or a draw. -/
theorem State.readOutByte_cases (s : State) (i : Nat) :
    (¬ s.busy ∧ i < s.outLen.toNat ∧ ∃ b, s.outByte i = some b ∧ s.readOutByte i = (b, s))
      ∨ s.readOutByte i = (Config.freeByte s.draws, { s with draws := s.draws + 1 }) := by
  unfold State.readOutByte
  split
  · exact .inr rfl
  · rename_i h
    split
    · rename_i b hb
      exact .inl ⟨fun h' => h (.inl h'), by omega, b, hb, rfl⟩
    · exact .inr rfl

/-- Reading OUT uses free values and changes nothing else (spec 20_memory.md R50). -/
theorem State.readOut_state (n : Nat) : ∀ (s : State) (i : Nat),
    ∃ d, s.draws ≤ d ∧ (s.readOut n i).2 = { s with draws := d } := by
  induction n with
  | zero => exact fun s i => ⟨s.draws, Nat.le_refl _, rfl⟩
  | succ n ih =>
    intro s i
    obtain ⟨d, hd, h⟩ := ih (s.readOutByte i).2 (i + 1)
    refine ⟨d, ?_, ?_⟩
    · refine Nat.le_trans ?_ hd
      rcases s.readOutByte_cases i with ⟨_, _, _, _, h'⟩ | h' <;> simp [h']
    · rw [State.readOut]
      refine h.trans ?_
      rcases s.readOutByte_cases i with ⟨_, _, _, _, h'⟩ | h' <;> simp [h']

/-- A defined read uses free values and changes nothing else (R50). -/
theorem readValue_state (s : State) (n a : Nat) :
    ∃ d, s.draws ≤ d ∧ (readValue s n a).2 = { s with draws := d } := by
  unfold readValue
  split
  · exact ⟨s.draws, Nat.le_refl _, rfl⟩
  · rcases s.readImg_cases ((a - Config.imgBase) / 4) with ⟨p, _, h⟩ | ⟨_, h⟩ <;> rw [h]
    · exact ⟨s.draws, Nat.le_refl _, rfl⟩
    · exact ⟨s.draws + 1, Nat.le_succ _, rfl⟩
  · exact s.readOut_state n _
  · exact ⟨s.draws, Nat.le_refl _, rfl⟩

/-! ## Commands -/

/-- Every way a command ends (spec 40_commands.md R70 to R74). -/
inductive CommandEffect (s : State) : State → Prop
  | nothing : CommandEffect s s
  | rejected (h : s.busy) : CommandEffect s s.setRej
  | blockError (c : ErrCode) (hc : c ≠ .none) (h : ¬ s.busy) : CommandEffect s (s.raiseBlockError c)
  | accepted (h : ¬ s.busy) (hw : s.imgW.toNat ≠ 0) (hh : s.imgH.toNat ≠ 0)
      (hi : s.imgW.toNat * s.imgH.toNat ≤ s.params.imgCap)
      (ho : outputLength s.params.rowPad s.imgW.toNat s.imgH.toNat ≤ s.params.outCap) :
      CommandEffect s (s.acceptJob s.imgW.toNat s.imgH.toNat (outputLength s.params.rowPad s.imgW.toNat s.imgH.toNat))
  | abandoned : CommandEffect s s.clearStatus.abandonJob

/-- Every command answers a next state, and one of these. -/
theorem exec_effect (i : Instr) (s : State) : ∃ t, exec i s = .next t ∧ CommandEffect s t := by
  cases i with
  | nop => exact ⟨s, rfl, .nothing⟩
  | reset => exact ⟨_, rfl, .abandoned⟩
  | process =>
    dsimp only [exec, execProcess]
    split
    · exact ⟨_, rfl, .rejected ‹_›⟩
    · split
      · exact ⟨_, rfl, .blockError _ (by decide) ‹_›⟩
      · split
        · exact ⟨_, rfl, .blockError _ (by decide) ‹_›⟩
        · rename_i hb hz ht
          simp only [State.tooLarge, Bool.or_eq_true, decide_eq_true_eq, not_or, Nat.not_lt] at ht
          exact ⟨_, rfl, .accepted hb (fun h => hz (.inl h)) (fun h => hz (.inr h)) ht.1 ht.2⟩

theorem illegalCommand_effect (s : State) : CommandEffect s (illegalCommand s) := by
  unfold illegalCommand
  split
  · exact .rejected ‹_›
  · exact .blockError _ (by decide) ‹_›

/-- A CTRL write of any word answers a next state, and one of these (R70). -/
theorem issueCommand_effect (s : State) (w : Word) : ∃ t, issueCommand s w = .next t ∧ CommandEffect s t := by
  unfold issueCommand
  split
  · exact exec_effect _ s
  · exact ⟨_, rfl, illegalCommand_effect s⟩

/-- A 32-bit write to CTRL issues its word as a command (R70). -/
theorem busWrite_ctrl (s : State) (w : Word) : busWrite s 4 0 w = issueCommand s w := by
  simp [busWrite, writeDefined, regionOf, alignedWord, writeEffect, regWrite]

/-! ## Writes -/

/-- Every way a defined host write ends (spec 20_memory.md R38 to R41). -/
inductive WriteEffect (s : State) (a : Nat) (v : Word) : State → Prop
  | command (ha : a = 0) (t : State) (h : CommandEffect s t) (hc : issueCommand s v = .next t) : WriteEffect s a v t
  | width (ha : a = 0x08) : WriteEffect s a v (s.writeImgW v)
  | height (ha : a = 0x0C) : WriteEffect s a v (s.writeImgH v)
  | pixel (ha : a % 4 = 0) (hr : regionOf s.params a = .img) : WriteEffect s a v (s.writeImg a v)
  | ignored : WriteEffect s a v s

/-- A host write answers BusError exactly where it is not defined, and else a next state, one of these. -/
theorem busWrite_effect (s : State) (n : Nat) (a : Addr) (v : Word) :
    (writeDefined s.params n a.toNat = false ∧ busWrite s n a v = .fault (.busError a))
      ∨ (writeDefined s.params n a.toNat = true ∧ ∃ t, busWrite s n a v = .next t ∧ WriteEffect s a.toNat v t) := by
  unfold busWrite
  split
  · rename_i hd
    refine .inr ⟨hd, ?_⟩
    unfold writeEffect
    split
    · unfold regWrite
      split
      · rename_i h0
        obtain ⟨t, ht, he⟩ := issueCommand_effect s v
        exact ⟨t, ht, .command h0 t he ht⟩
      · exact ⟨_, rfl, .width ‹_›⟩
      · exact ⟨_, rfl, .height ‹_›⟩
      · exact ⟨_, rfl, .ignored⟩
    · rename_i hr
      rw [writeDefined, hr] at hd
      simp only [alignedWord, Bool.and_eq_true, decide_eq_true_eq] at hd
      exact ⟨_, rfl, .pixel hd.2 hr⟩
    · exact ⟨_, rfl, .ignored⟩
    · exact ⟨_, rfl, .ignored⟩
  · rename_i hd
    exact .inl ⟨by simpa using hd, rfl⟩

/-- A host read answers BusError exactly where it is not defined, and else a value and a state with only free values used. -/
theorem busRead_effect (s : State) (n : Nat) (a : Addr) :
    (readDefined s.params n a.toNat = false ∧ busRead s n a = .error (.busError a))
      ∨ (readDefined s.params n a.toNat = true
          ∧ ∃ v d, s.draws ≤ d ∧ busRead s n a = .ok (v, { s with draws := d })) := by
  unfold busRead
  split
  · rename_i hd
    obtain ⟨d, hle, h⟩ := readValue_state s n a.toNat
    exact .inr ⟨hd, (readValue s n a.toNat).1, d, hle, by rw [← h]⟩
  · rename_i hd
    exact .inl ⟨by simpa using hd, rfl⟩

/-! ## The host's move -/

/-- Every way the host's move ends when it answers a next state. -/
inductive HostEffect (s : State) : State → Prop
  | idle (h : s.prog = []) : HostEffect s s
  | read (n : Nat) (a : Addr) (dst : Nat) (rest : List BusOp) (v : Word) (d : Nat) (hp : s.prog = .rd n a dst :: rest)
      (hd : s.draws ≤ d) : HostEffect s { s with prog := rest, draws := d, vars := (dst, v) :: s.vars }
  | write (n : Nat) (a : Addr) (v : Word) (rest : List BusOp) (hp : s.prog = .wr n a v :: rest)
      (hd : writeDefined s.params n a.toNat = true) (t : State) (h : WriteEffect (s.setProg rest) a.toNat v t) :
      HostEffect s t
  | waited (dst : Nat) (rest : List BusOp) (hp : s.prog = .wait dst :: rest) (q : List BusOp)
      (hq : q = rest ∨ (s.busy ∧ q = .wait dst :: rest)) :
      HostEffect s { s with prog := q, vars := (dst, s.status) :: s.vars }

/-- The host's move answers BusError exactly where its next access is not defined, and else a next state, one of these. -/
theorem hostMove_effect (s : State) :
    (∃ op rest a, s.prog = op :: rest ∧ Safety.opDefined s.params op = false ∧ hostMove s = .fault (.busError a))
      ∨ ((∀ op rest, s.prog = op :: rest → Safety.opDefined s.params op = true)
          ∧ ∃ t, hostMove s = .next t ∧ HostEffect s t) := by
  cases hp : s.prog with
  | nil => exact .inr ⟨by simp, s, by simp [hostMove, hp], .idle hp⟩
  | cons op rest =>
    have hm : hostMove s = performOp (s.setProg rest) op := by simp [hostMove, hp]
    rw [hm]
    cases op with
    | rd n a dst =>
      rcases busRead_effect (s.setProg rest) n a with ⟨hd, h⟩ | ⟨hd, v, d, hle, h⟩
      · exact .inl ⟨_, rest, a, rfl, hd, by simp [performOp, hostRead, h]⟩
      · exact .inr ⟨by rintro _ _ ⟨⟩; exact hd, _, by simp only [performOp, hostRead, h]; rfl,
          .read n a dst rest v d hp hle⟩
    | wr n a v =>
      rcases busWrite_effect (s.setProg rest) n a v with ⟨hd, h⟩ | ⟨hd, t, h, he⟩
      · exact .inl ⟨_, rest, a, rfl, hd, h⟩
      · exact .inr ⟨by rintro _ _ ⟨⟩; exact hd, t, h, .write n a v rest hp hd t he⟩
    | wait dst =>
      refine .inr ⟨by rintro _ _ ⟨⟩; rfl, _, rfl, ?_⟩
      split
      · exact .waited dst rest hp _ (.inr ⟨‹_›, rfl⟩)
      · exact .waited dst rest hp _ (.inl rfl)

end Sys2Proof.Machine
end

