-- ==== Sys2Proof/Laws/HostProgram.lean ====
section
/-! SUPPORT. What the host notation expands to: numerals, writes, and the pixel writes of `display` by index. -/

namespace Sys2Proof.Machine

theorem addrOf_some {n : Nat} (h : n < 2 ^ 24) : addrOf n = some (BitVec.ofNat 24 n) := if_pos h

theorem addrOf_none {n : Nat} (h : ¬ n < 2 ^ 24) : addrOf n = none := if_neg h

theorem valueOf_some {n : Nat} (h : n < 2 ^ 32) : valueOf n = some (BitVec.ofNat 32 n) := if_pos h

theorem valueOf_none {n : Nat} (h : ¬ n < 2 ^ 32) : valueOf n = none := if_neg h

/-- The address of an encoded access is the numeral itself. -/
theorem addrOf_toNat {n : Nat} {a : Addr} (h : addrOf n = some a) : a.toNat = n := by
  unfold addrOf at h
  split at h
  · cases h; simp only [BitVec.toNat_ofNat]; omega
  · cases h

/-- The value of an encoded write is the numeral itself. -/
theorem valueOf_toNat {n : Nat} {v : Word} (h : valueOf n = some v) : v.toNat = n := by
  unfold valueOf at h
  split at h
  · cases h; simp only [BitVec.toNat_ofNat]; omega
  · cases h

/-- A line is a write exactly when both its numerals fit. -/
theorem writeLine_eq (a v : Nat) :
    writeLine a v = if a < 2 ^ 24 ∧ v < 2 ^ 32 then some (.wr 4 (BitVec.ofNat 24 a) (BitVec.ofNat 32 v)) else none := by
  unfold writeLine addrOf valueOf
  by_cases ha : a < 2 ^ 24
  · by_cases hv : v < 2 ^ 32
    · rw [if_pos ha, if_pos hv, if_pos ⟨ha, hv⟩]; rfl
    · rw [if_pos ha, if_neg hv, if_neg fun h => hv h.2]
  · rw [if_neg ha, if_neg (c := a < 2 ^ 24 ∧ v < 2 ^ 32) fun h => ha h.1]

@[simp] theorem pixLines_length (W k : Nat) (vs : List Nat) : (pixLines W k vs).length = vs.length := by
  induction vs generalizing k with
  | nil => rfl
  | cons v vs ih => simp [pixLines, ih]

/-- Line j of the pixel writes is that of pixel k + j, in row-major order. -/
theorem pixLines_getElem? (W k j : Nat) (vs : List Nat) :
    (pixLines W k vs)[j]? = vs[j]?.map fun v => pixLine ((k + j) % W) ((k + j) / W) W v := by
  induction vs generalizing k j with
  | nil => simp [pixLines]
  | cons v vs ih =>
    cases j with
    | zero => simp [pixLines]
    | succ j => simp [pixLines, ih, Nat.add_assoc, Nat.add_comm 1]

/-- Pixel n of an image of width W is at row n / W and column n mod W, so its word is n. -/
theorem pixLine_divMod (n W v : Nat) : pixLine (n % W) (n / W) W v = writeLine (imgAddr n) v := by
  unfold pixLine; rw [Nat.div_add_mod']

/-- All lines together are the accesses exactly when each is that access. -/
theorem allLines_eq_some (ls : List (Option BusOp)) (ops : List BusOp) :
    allLines ls = some ops ↔ ls = ops.map some := by
  induction ls generalizing ops with
  | nil => cases ops <;> simp [allLines]
  | cons l ls ih =>
    cases l with
    | none => cases ops <;> simp [allLines]
    | some op => cases ops <;> simp [allLines, ih, and_comm]

end Sys2Proof.Machine
end

