-- ==== Sys2Proof/Laws/PerInstr.lean ====
section
/-! SUPPORT. Statements made command by command, about the command as syntax. -/

namespace Sys2Proof.Laws.TableRow

/-- The match and the mask of each row of spec/opcode_table.json (30_encoding.md R69). -/
def rowMatch : Instr → Word
  | .nop => 0x00000000
  | .process => 0x00000001
  | .reset => 0x00000002

def rowMask : Word := 0xFFFFFFFF

/-- The command word is a well-formed word that matches its own row of the table and no other. -/
def Statement (i : Instr) : Prop :=
  wordWellFormed (encode i) = true ∧ encode i &&& rowMask = rowMatch i
    ∧ ∀ j : Instr, encode i &&& rowMask = rowMatch j → j = i

theorem nop : Statement .nop := ⟨by decide, by decide, fun j => by cases j <;> decide⟩
theorem process : Statement .process := ⟨by decide, by decide, fun j => by cases j <;> decide⟩
theorem reset : Statement .reset := ⟨by decide, by decide, fun j => by cases j <;> decide⟩

end Sys2Proof.Laws.TableRow
end

