-- ==== Sys2Proof/Laws/Step.lean ====
section
/-! SUPPORT. What a step can do, said once, and how runs compose. -/

namespace Sys2Proof.Machine

open Sys2Proof.Safety

/-- A step is the move of its mover, with the turn taken off. -/
theorem step_eq (s : State) : step s = move (mover s) (s.setTurns s.turns.tail) := by
  unfold step mover
  cases h : s.turns with
  | nil =>
    have : s.setTurns ([] : List Agent).tail = s := by rw [List.tail_nil, ← h]; rfl
    rw [this]
  | cons a rest => rfl

/-- Every way the engine's move ends (spec 40_commands.md R75, R76). -/
inductive EngineEffect (s : State) : State → Prop
  | idle (h : ¬ s.busy ∨ (s.jh.toNat < s.cy.toNat)) : EngineEffect s s
  | pixel (hb : s.busy) (hy : s.cy.toNat < s.jh.toNat) : EngineEffect s s.jobStep
  | finish (hb : s.busy) (hy : s.cy = s.jh) : EngineEffect s s.complete

/-- The engine's move always answers a next state, one of these. -/
theorem engineMove_effect (s : State) : ∃ t, engineMove s = .next t ∧ EngineEffect s t := by
  unfold engineMove
  split
  · split
    · exact ⟨_, rfl, .pixel ‹_› ‹_›⟩
    · split
      · exact ⟨_, rfl, .finish ‹_› ‹_›⟩
      · rename_i h1 h2
        have : s.cy.toNat ≠ s.jh.toNat := fun h => h2 (BitVec.eq_of_toNat_eq h)
        exact ⟨_, rfl, .idle (.inr (by omega))⟩
  · exact ⟨_, rfl, .idle (.inl ‹_›)⟩

/-- Every step that answers a next state is a host effect or an engine effect on the state with its turn taken off. -/
theorem step_effect {s t : State} (h : step s = .next t) :
    (mover s = .host ∧ HostEffect (s.setTurns s.turns.tail) t)
      ∨ (mover s = .engine ∧ EngineEffect (s.setTurns s.turns.tail) t) := by
  rw [step_eq] at h
  cases hm : mover s with
  | host =>
    rw [hm] at h
    rcases hostMove_effect (s.setTurns s.turns.tail) with ⟨_, _, _, _, _, h'⟩ | ⟨_, u, h', he⟩
    · exact absurd (h'.symm.trans h) (by simp)
    · have : u = t := by have := h'.symm.trans h; simpa using this
      exact .inl ⟨rfl, this ▸ he⟩
  | engine =>
    rw [hm] at h
    obtain ⟨u, h', he⟩ := engineMove_effect (s.setTurns s.turns.tail)
    have : u = t := by have := h'.symm.trans h; simpa using this
    exact .inr ⟨rfl, this ▸ he⟩

/-! ## Runs -/

@[simp] theorem run_zero (s : State) : run 0 s = .next s := rfl

theorem run_succ {s t : State} (k : Nat) (h : step s = .next t) : run (k + 1) s = run k t := by
  simp [run, h]

/-- A run of j + k steps is one of j, then one of k. -/
theorem run_add {s t : State} (j k : Nat) (h : run j s = .next t) : run (j + k) s = run k t := by
  induction j generalizing s with
  | zero => cases h; simp
  | succ j ih =>
    cases hs : step s with
    | next u =>
      rw [run_succ j hs] at h
      rw [Nat.add_right_comm, run_succ _ hs, ih h]
    | fault f => simp [run, hs] at h
    | refused r => simp [run, hs] at h

@[simp] theorem engineTurns_zero (s : State) : engineTurns 0 s = 0 := rfl

theorem engineTurns_succ {s t : State} (k : Nat) (h : step s = .next t) :
    engineTurns (k + 1) s = (if mover s = .engine then 1 else 0) + engineTurns k t := by
  simp [engineTurns, h]

/-- The engine's turns of a run of j + k steps are those of its two parts. -/
theorem engineTurns_add {s t : State} (j k : Nat) (h : run j s = .next t) :
    engineTurns (j + k) s = engineTurns j s + engineTurns k t := by
  induction j generalizing s with
  | zero => cases h; simp
  | succ j ih =>
    cases hs : step s with
    | next u =>
      rw [run_succ j hs] at h
      rw [Nat.add_right_comm, engineTurns_succ _ hs, engineTurns_succ _ hs, ih h, Nat.add_assoc]
    | fault f => simp [run, hs] at h
    | refused r => simp [run, hs] at h

/-- The runs here are the runs of the host's interface. -/
theorem run_eq_core_run (k : Nat) (s : State) : run k s = core.run k s := by
  induction k generalizing s with
  | zero => rfl
  | succ k ih =>
    simp only [run, Host.Core.run]
    rw [show core.step s = step s from rfl]
    cases step s with
    | next t => exact ih t
    | fault f => rfl
    | refused r => rfl

end Sys2Proof.Machine
end

