-- ==== Sys2Proof/Tests/Slice0.lean ====
section
/-! SUPPORT. Tests of one step or one operation each, with expected values from spec/95_test_vectors.md or worked by hand from the rules, the WellFormed smoke, and for each obligation with hypotheses a witness that meets them. -/

namespace Sys2Proof.Tests

open Sys2Proof.Machine Sys2Proof.Safety

/-! ## Small states -/

/-- A small DPP: an 8 x 1 panel, room for 16 pixels and 8 output bytes. -/
def small : Config.Params where
  panelW := 8
  panelH := 1
  imgCap := 16
  outCap := 8
  inkBit := 1
  rowPad := true
  geometry := by decide
  imgFits := by decide
  outFits := by decide

/-- Power-on with the small parameters. -/
def base : State := State.powerOn small

/-- One white pixel, not yet accepted. -/
def onePixel : State :=
  { base with imgW := 1, imgH := 1, img := Memory.writeWord [] 0x400000 0xFFFFFFFF }

/-- The job of `onePixel`, just accepted. -/
def accepted : State := onePixel.acceptJob 1 1 1

/-- That job with its pixel processed, before completion. -/
def scannedOne : State := accepted.jobStep

/-- That job completed. -/
def finished : State := scannedOne.complete

/-- ERROR with ZERO_SIZE. -/
def failed : State := base.raiseBlockError .zeroSize

/-- The next state of an outcome, or a default. -/
def nextOr (o : Host.Outcome State Fault Refusal) (d : State) : State :=
  match o with
  | .next s => s
  | .fault _ => d
  | .refused _ => d

/-! ## The WellFormed smoke: each check refuses an ill-formed term -/

theorem test_rsvd_refused : rsvdZero 0x00000100 = false ∧ wordWellFormed 0x80000001 = false := by decide
theorem test_reserved_op_refused : opAssigned 0x03 = false ∧ wordWellFormed 0x000000FF = false := by decide
theorem test_commands_well_formed :
    Instr.nop.wellFormed = true ∧ Instr.process.wellFormed = true ∧ Instr.reset.wellFormed = true := by decide
theorem test_zero_width_refused : (Config.Raw.mk 0 8 16 8 1 true).geometryOk = false := by decide
theorem test_wide_panel_refused : (Config.Raw.mk 65536 8 16 8 1 true).geometryOk = false := by decide
theorem test_zero_height_refused : (Config.Raw.mk 8 0 16 8 1 true).geometryOk = false := by decide
theorem test_tall_panel_refused : (Config.Raw.mk 8 65536 16 8 1 true).geometryOk = false := by decide
theorem test_odd_panel_refused : (Config.Raw.mk 3 3 16 8 1 true).geometryOk = false := by decide
theorem test_small_imgCap_refused : (Config.Raw.mk 8 1 7 8 1 true).imgCapOk = false := by decide
theorem test_large_imgCap_refused : (Config.Raw.mk 8 1 1048577 8 1 true).imgCapOk = false := by decide
theorem test_small_outCap_refused : (Config.Raw.mk 8 2 16 1 1 true).outCapOk = false := by decide
theorem test_large_outCap_refused : (Config.Raw.mk 8 1 16 4194305 1 true).outCapOk = false := by decide
theorem test_panel_800x480_ok : (Config.Raw.mk 800 480 384000 48000 1 true).geometryOk = true := by decide

/-! ## Decoding: words written out bit by bit from R58 and R60 -/

theorem test_decode_nop : decodeWord 0b00000000000000000000000000000000 = .ok .nop := by decide
theorem test_decode_process : decodeWord 0b00000000000000000000000000000001 = .ok .process := by decide
theorem test_decode_reset : decodeWord 0b00000000000000000000000000000010 = .ok .reset := by decide
/-- V-E4, V-E6, V-E8. -/
theorem test_decode_illegal :
    decodeWord 0x00000003 = .error .opReserved ∧ decodeWord 0x00000100 = .error .rsvdNonZero
      ∧ decodeWord 0xFFFFFF02 = .error .rsvdNonZero := by decide
/-- R47: the byte at the lowest address is bits [7:0]. -/
theorem test_decode_bytes : decodeBytes [0x02, 0x00, 0x00, 0x00, 0x55] = .ok (.reset, [0x55]) := by decide
theorem test_decode_short : decodeBytes [0x02, 0x00, 0x00] = .error .truncated := by decide
theorem test_table_words :
    decodeTableWord 32 0 = some .nop ∧ decodeTableWord 32 1 = some .process ∧ decodeTableWord 32 2 = some .reset
      ∧ decodeTableWord 32 3 = none := by decide

/-! ## Commands -/

/-- V-C2: PROCESS at power-on gives STATUS 0x00000103. -/
theorem test_process_zero_size : (nextOr (exec .process base) accepted).status = 0x00000103 := by decide
/-- V-C9: 65535 x 65535 is OVERSIZE, the product taken without wrap. -/
theorem test_process_oversize :
    (nextOr (exec .process { base with imgW := 65535, imgH := 65535 }) accepted).status = 0x00000203 := by decide
/-- V-C13: NOP in ERROR leaves STATUS. -/
theorem test_nop_in_error : (nextOr (exec .nop failed) base).status = 0x00000103 := by decide
/-- V-C12: RESET from ERROR. -/
theorem test_reset_from_error : (nextOr (exec .reset failed) failed).status = 0x00000000 := by decide
/-- V-C19: RESET while BUSY abandons the job. -/
theorem test_reset_while_busy : (nextOr (exec .reset accepted) accepted).busy = false := by decide
/-- V-C10: 0x00000101 is ILLEGAL_CMD even where PROCESS would be ZERO_SIZE. -/
theorem test_illegal_command : (nextOr (busWrite base 4 0 0x00000101) base).status = 0x00000403 := by decide
/-- V-C15: PROCESS while BUSY sets REJ. -/
theorem test_process_while_busy : (nextOr (step (accepted.withFetchWord 32 1)) base).status = 0x00000005 := by decide
/-- PROCESS as the first instruction after reset runs, and is refused with ZERO_SIZE. -/
theorem test_first_step_process : (nextOr (step (State.reset.withFetchWord 32 1)) base).status = 0x00000103 := by decide
theorem test_first_step_nop : (nextOr (step (State.reset.withFetchWord 32 0)) failed).status = 0x00000000 := by decide
theorem test_first_step_reset : (nextOr (step (State.reset.withFetchWord 32 2)) failed).status = 0x00000000 := by decide

/-! ## Registers and the bus -/

/-- V-C26: bits [31:16] of IMG_W are ignored. -/
theorem test_imgW_write : (nextOr (busWrite base 4 0x000008 0x12340009) base).imgW = 0x0009 := by decide
/-- V-C17: a write to IMG_W while BUSY is stored and sets REJ. -/
theorem test_imgW_write_busy :
    let t := nextOr (busWrite accepted 4 0x000008 7) base
    t.imgW = 7 ∧ t.status = 0x00000005 ∧ t.jw = 1 := by decide
/-- V-C18: a write to IMG while BUSY is dropped and sets REJ. -/
theorem test_img_write_busy :
    let t := nextOr (busWrite accepted 4 0x400000 0) base
    t.img = accepted.img ∧ t.status = 0x00000005 := by decide
/-- V-B15, V-B16: a pixel word and its bytes. -/
theorem test_img_write :
    let t := nextOr (busWrite base 4 0x400004 0xFF3264C8) base
    t.imgWord 1 = some 0xFF3264C8
      ∧ t.img = [(0x400004, 0xC8), (0x400005, 0x64), (0x400006, 0x32), (0x400007, 0xFF)] := by decide
/-- V-B1, V-B2, V-B4, V-B7, V-B10, V-B11, V-B14, on the small parameters. -/
theorem test_bad_reads :
    busRead base 2 0x000004 = .error (.busError 0x000004) ∧ busRead base 4 0x000002 = .error (.busError 0x000002)
      ∧ busRead base 4 0x000040 = .error (.busError 0x000040) ∧ busRead base 1 0x400000 = .error (.busError 0x400000)
      ∧ busRead base 2 0x800001 = .error (.busError 0x800001) ∧ busRead base 4 0x800002 = .error (.busError 0x800002)
      ∧ busRead base 8 0x000000 = .error (.busError 0x000000) ∧ busRead base 1 0x800008 = .error (.busError 0x800008) := by
  decide
/-- V-B17: little-endian reads of OUT, bytes 0x40 and 0x80. -/
theorem test_out_read16 :
    let s := { finished with outLen := 2, out := [(0x800000, 0x40), (0x800001, 0x80)] }
    busRead s 2 0x800000 = .ok (0x00008040, s) := by decide
/-- V-C23, V-C24, V-C25. -/
theorem test_register_reads :
    (busRead State.reset 4 0x000010).map (·.1) = .ok 800 ∧ (busRead State.reset 4 0x000014).map (·.1) = .ok 480
      ∧ (busRead failed 4 0x000000).map (·.1) = .ok 0 ∧ (busRead failed 4 0x00003C).map (·.1) = .ok 0 := by decide
/-- R68: the expansion of `display` on a 1 x 1 image. -/
theorem test_display_expands :
    (Pseudo.display 1 1 [0xFFFFFFFF] 0).expand
        = some [.wr 4 0x000008 1, .wr 4 0x00000C 1, .wr 4 0x400000 0xFFFFFFFF, .wr 4 0x000000 1, .wait 0]
      ∧ (Pseudo.display 1 1 [] 0).expand = none := by decide
/-- R68, R7: `pix 0, 0x2FFFFF, 1, 2` is the last one with a 24-bit address, and the next has none. -/
theorem test_pix_address_exact :
    (Pseudo.pix 0 0x2FFFFF 1 2).expand = some [.wr 4 0xFFFFFC 2] ∧ (Pseudo.pix 0 0x300000 1 2).expand = none := by decide
/-- R67: a program of an access and a pseudo-instruction. -/
theorem test_encode_program :
    encodeProgram [.access (rd8 0x800000 1), .pseudo (.setdim 4 2), .pseudo .process]
      = some [.rd 1 0x800000 1, .wr 4 0x000008 4, .wr 4 0x00000C 2, .wr 4 0x000000 1] := by decide

/-! ## The stages -/

/-- V-G1 to V-G15. -/
theorem test_gray :
    [0xFFFFFFFF, 0xFF000000, 0xFF0000FF, 0xFF00FF00, 0xFFFF0000, 0xFF808080, 0xFF7F7F7F, 0xFF010101, 0xFF3264C8,
      0xFF00FFFF, 0xFFFFFF00, 0xFFFF00FF, 0xFF1E140A, 0x003264C8, 0xFF050000].map gray
      = [255, 0, 76, 150, 29, 128, 127, 1, 124, 226, 179, 105, 18, 124, 0] := by decide
/-- V-Q1 to V-Q7. -/
theorem test_quantize :
    [-127, 0, 127, 128, 143, 255, 382].map quantize
      = [(false, -127), (false, 0), (false, 127), (true, -127), (true, -112), (true, 0), (true, 127)] := by decide
/-- V-T6, V-T9, V-T14: truncation, not floor. -/
theorem test_shares :
    [share 7 (-15), share 3 (-15), share 5 (-15), share 1 (-15)] = [-6, -2, -4, 0]
      ∧ [share 7 45, share 3 45, share 5 45, share 1 45] = [19, 8, 14, 2]
      ∧ [share 7 (-112), share 3 (-112), share 5 (-112), share 1 (-112)] = [-49, -21, -35, -7] := by decide
/-- V-D1 to V-D5: a 3 x 2 plane of zeros and e = 16. -/
theorem test_diffuse :
    let z := ErrPlane.zero 3 2
    z.diffuse 3 2 0 0 16 = [[0, 7, 0], [5, 1, 0]] ∧ z.diffuse 3 2 1 0 16 = [[0, 0, 7], [3, 5, 1]]
      ∧ z.diffuse 3 2 2 0 16 = [[0, 0, 0], [0, 3, 5]] ∧ z.diffuse 3 2 0 1 16 = [[0, 0, 0], [0, 7, 0]]
      ∧ z.diffuse 3 2 2 1 16 = z := by decide
/-- V-K6 to V-K11. -/
theorem test_output_length :
    outputLength true 2 2 = 2 ∧ outputLength false 2 2 = 1 ∧ outputLength true 10 2 = 4 ∧ outputLength false 10 2 = 3
      ∧ outputLength true 800 480 = 48000 ∧ outputLength false 1 48000 = 6000 := by decide
/-- V-P1: the four readings of the source's scenario 4, on the raster WB / BW. -/
theorem test_pack_scenario :
    let bin := fun y x => decide (y = x)
    packFrame 1 true bin 2 2 = [0x40, 0x80] ∧ packFrame 0 false bin 2 2 = [0x90]
      ∧ packFrame 0 true bin 2 2 = [0x80, 0x40] ∧ packFrame 1 false bin 2 2 = [0x60] := by decide
/-- V-F3: the 4 x 2 image of gray 100 dithers to BWBB / BWBW and packs to B0, A0. -/
theorem test_frame_gray100 : frameBytes 1 true (fun _ => 0xFF646464) 4 2 = [0xB0, 0xA0] := by decide
/-- V-F8: the one job step of a 1 x 1 image of gray 128 writes byte 0x00. -/
theorem test_job_step_white :
    ({ accepted with img := Memory.writeWord [] 0x400000 0xFF808080 }).jobStep.out = [(0x800000, 0x00)] := by decide
/-- V-F9: of gray 127, byte 0x80. -/
theorem test_job_step_black :
    ({ accepted with img := Memory.writeWord [] 0x400000 0xFF7F7F7F }).jobStep.out = [(0x800000, 0x80)] := by decide

/-! ## Witnesses: concrete states and operands that meet each obligation's hypotheses -/

theorem accepted_jobInv : JobInv accepted := by
  refine ⟨?_, ?_, ?_, ?_, ?_, ?_, .inl ?_, ?_, ?_, ?_, ?_, ?_, ?_⟩ <;> decide

theorem accepted_inv : Inv accepted := by
  refine ⟨?_, ?_, ?_, ?_, ?_, ?_, ?_, ?_, ?_, ?_, fun _ => accepted_jobInv⟩ <;> decide

theorem scannedOne_inv : Inv scannedOne := by
  refine ⟨?_, ?_, ?_, ?_, ?_, ?_, ?_, ?_, ?_, ?_, fun _ =>
    ⟨?_, ?_, ?_, ?_, ?_, ?_, .inr ?_, ?_, ?_, ?_, ?_, ?_, ?_⟩⟩ <;> decide

/-- The steps of the job of `onePixel`, the engine moving alone. -/
theorem accepted_steps : exec .process onePixel = .next accepted ∧ step accepted = .next scannedOne
    ∧ step scannedOne = .next finished := ⟨rfl, rfl, rfl⟩

theorem witness_EncodeThenDecode : Instr.reset.wellFormed = true := by decide

theorem witness_IllegalWordEffect :
    rsvdField 0x00000100 ≠ 0 ∧ 0x03 ≤ (opField 0x00000003).toNat ∧ ¬ base.busy ∧ accepted.busy := by decide

theorem witness_StepRunsDecodedCommand :
    decodeWord 1 = .ok .process
      ∧ (base.withFetchWord 32 1).prog = [.wr 4 0 1] ∧ (base.withFetchWord 32 1).turns = [.host]
      ∧ { base with prog := [.wr 4 0 1] }.turns = [] ∧ ¬ { base with prog := [.wr 4 0 1] }.busy := by decide

theorem witness_EveryInterleavingIsAdmitted :
    (base.setTurns [.host]).turns = .host :: [] ∧ (base.setTurns [.engine]).turns = .engine :: []
      ∧ accepted.turns = [] ∧ accepted.busy ∧ base.turns = [] ∧ ¬ base.busy ∧ base.prog = [] := by decide

theorem witness_HostMovesInProgramOrder :
    (base.setProg [.wr 4 8 7]).prog = .wr 4 8 7 :: [] ∧ (base.setProg [.rd 4 4 0]).prog = .rd 4 4 0 :: []
      ∧ busRead base 4 4 = .ok (0, base) ∧ (base.setProg [.wait 0]).prog = .wait 0 :: [] ∧ ¬ (base.setProg [.wait 0]).busy
      ∧ (accepted.setProg [.wait 0]).prog = .wait 0 :: [] ∧ (accepted.setProg [.wait 0]).busy := by decide

theorem witness_StepsStopOnlyOnBusErrors : step (base.setProg [.rd 2 4 0]) = .fault (.busError 4) := rfl

theorem witness_DefinedProgramsNeverStop : ProgramDefined (base.setProg [.wr 4 0 1, .wait 0, .rd 1 0x800007 0]) := by
  unfold ProgramDefined; decide

theorem witness_CtrlWriteDispatch :
    accepted.busy ∧ decodeWord 0 = .ok .nop ∧ decodeWord 2 = .ok .reset ∧ decodeWord 3 ≠ .ok .nop ∧ decodeWord 3 ≠ .ok .reset
      ∧ ¬ base.busy ∧ decodeWord 3 = .error .opReserved ∧ decodeWord 1 = .ok .process := by decide

theorem witness_BusyRejectsProcessAndIllegal :
    accepted.busy ∧ decodeWord 1 = .ok .process ∧ decodeWord 0x100 = .error .rsvdNonZero := by decide

/-- The clauses of ProcessOutcome at the capacities 16 and 8: 16 x 1 and 1 x 8 fit exactly, 17 x 1 and 1 x 9 do not. -/
theorem witness_ProcessOutcome :
    let at_ := fun w h : Half => { base with imgW := w, imgH := h }
    ¬ base.busy ∧ (at_ 0 5).imgW.toNat = 0 ∧ (at_ 5 0).imgH.toNat = 0
      ∧ (at_ 17 1).params.imgCap < 17 * 1 ∧ (at_ 1 9).params.outCap < 9 * ((1 + 7) / 8)
      ∧ 16 * 1 ≤ (at_ 16 1).params.imgCap ∧ 1 * ((16 + 7) / 8) ≤ (at_ 16 1).params.outCap
      ∧ 1 * 8 ≤ (at_ 1 8).params.imgCap ∧ 8 * ((1 + 7) / 8) ≤ (at_ 1 8).params.outCap := by decide

theorem witness_CommandFrame :
    exec .nop base = .next base ∧ exec .process onePixel = .next accepted ∧ exec .process base = .next failed
      ∧ exec .process accepted = .next accepted.setRej ∧ exec .reset finished = .next finished.clearStatus.abandonJob :=
  ⟨rfl, rfl, rfl, rfl, rfl⟩

theorem witness_ErrorExit : failed.jobState = .error ∧ decodeWord 3 = .error .opReserved := by decide

theorem witness_DimensionRegisters : ¬ base.busy ∧ accepted.busy := by decide

theorem witness_PanelRegisters : step accepted = .next scannedOne := rfl

theorem witness_OutLenRegister :
    ¬ onePixel.busy ∧ exec .process onePixel = .next accepted ∧ scannedOne.busy ∧ scannedOne.cy = scannedOne.jh
      ∧ engineMove scannedOne = .next finished ∧ step scannedOne = .next finished ∧ finished.outLen ≠ scannedOne.outLen :=
  ⟨by decide, rfl, by decide, by decide, rfl, rfl, by decide⟩

theorem witness_ReservedOffsets :
    (0x00001C : Addr).toNat = 0x1C ∧ (0x00001C : Addr).toNat % 4 = 0 ∧ (0x00003C : Addr).toNat ≤ 0x3C
      ∧ (0x00003C : Addr).toNat % 4 = 0 := by decide

theorem witness_CtrlRegister : decodeWord 0 = .ok .nop ∧ (0x00000100 : Word).extractLsb' 8 24 ≠ 0 := by decide

/-- One step of each kind that writes STATE. -/
theorem witness_StateWriters :
    (step (onePixel.withFetchWord 32 1) = .next accepted ∧ accepted.jobState ≠ onePixel.jobState)
      ∧ (step (accepted.withFetchWord 32 2) = .next accepted.clearStatus.abandonJob
          ∧ accepted.clearStatus.abandonJob.jobState ≠ accepted.jobState)
      ∧ (step scannedOne = .next finished ∧ finished.jobState ≠ scannedOne.jobState)
      ∧ (step (base.withFetchWord 32 1) = .next failed ∧ failed.jobState ≠ base.jobState) :=
  ⟨⟨rfl, by decide⟩, ⟨rfl, by decide⟩, ⟨rfl, by decide⟩, ⟨rfl, by decide⟩⟩

/-- While BUSY, a CTRL write of PROCESS and writes of IMG_W, IMG_H and IMG; and REJ cleared by RESET. -/
theorem witness_RejRule :
    let busyWith := fun op => (accepted.setProg [op]).setTurns [.host]
    (mover (busyWith (.wr 4 0 1)) = .host ∧ (busyWith (.wr 4 0 1)).busy ∧ decodeWord 1 = .ok .process
      ∧ step (busyWith (.wr 4 0 1)) = .next accepted.setRej ∧ accepted.rej = false ∧ accepted.setRej.rej = true)
      ∧ step (busyWith (.wr 4 0x000008 1)) = .next accepted.setRej
      ∧ step (busyWith (.wr 4 0x00000C 1)) = .next accepted.setRej
      ∧ (regionOf accepted.params (0x40003C : Addr).toNat = .img
          ∧ step (busyWith (.wr 4 0x40003C 1)) = .next accepted.setRej)
      ∧ step (accepted.setRej.withFetchWord 32 2) = .next accepted.setRej.clearStatus.abandonJob :=
  ⟨⟨rfl, rfl, rfl, rfl, rfl, rfl⟩, rfl, rfl, ⟨rfl, rfl⟩, rfl⟩

theorem witness_ErrCodeOnlyInError :
    (failed.err = .none ↔ failed.jobState ≠ .error) ∧ (accepted.err = .none ↔ accepted.jobState ≠ .error)
      ∧ step accepted = .next scannedOne := ⟨by decide, by decide, rfl⟩

/-- The first and last word of each region and the last byte of OUT are defined, their neighbours are not. -/
theorem witness_DefinedAccesses :
    readDefined small 4 0x00003C = true ∧ readDefined small 4 0x000040 = false
      ∧ readDefined small 4 0x400000 = true ∧ readDefined small 4 0x3FFFFC = false
      ∧ readDefined small 4 0x40003C = true ∧ readDefined small 4 0x400040 = false
      ∧ readDefined small 1 0x800007 = true ∧ readDefined small 1 0x800008 = false
      ∧ readDefined small 4 0x800004 = true ∧ writeDefined small 4 0x800000 = false
      ∧ writeDefined small 4 0x40003C = true ∧ writeDefined small 2 0x000008 = false := by decide

theorem witness_ImgWriteThenRead :
    15 < base.params.imgCap ∧ (0x40003C : Addr).toNat = 0x400000 + 4 * 15 ∧ ¬ base.busy ∧ base.imgWord 15 = none
      ∧ 0 < onePixel.params.imgCap ∧ (0x400000 : Addr).toNat = 0x400000 + 4 * 0
      ∧ onePixel.imgWord 0 = some 0xFFFFFFFF := by decide

theorem witness_ImgWriteWhileBusyDropped :
    accepted.busy ∧ regionOf accepted.params (0x40003C : Addr).toNat = .img ∧ (0x40003C : Addr).toNat % 4 = 0
      ∧ regionOf accepted.params (0x40003D : Addr).toNat = .img ∧ (0x40003D : Addr).toNat % 4 ≠ 0 := by decide

theorem witness_ImageFixedWhileBusy : accepted.busy ∧ step accepted = .next scannedOne := ⟨rfl, rfl⟩

theorem witness_LatchFixedWhileBusy : accepted.busy ∧ step accepted = .next scannedOne ∧ scannedOne.busy :=
  ⟨rfl, rfl, rfl⟩

/-- One byte below OUT_LEN, two bytes across it, four bytes at the end of OUT beyond it, one byte while BUSY. -/
theorem witness_OutReadBytes :
    0 % 1 = 0 ∧ (0x800000 : Addr).toNat = 0x800000 + 0 ∧ 0 + 1 ≤ finished.params.outCap ∧ ¬ finished.busy
      ∧ finished.outLen.toNat - 0 = 1 ∧ finished.outByte 0 = some 0x00 ∧ 0 + 2 ≤ finished.params.outCap
      ∧ 4 % 4 = 0 ∧ (0x800004 : Addr).toNat = 0x800000 + 4 ∧ 4 + 4 ≤ finished.params.outCap
      ∧ finished.outLen.toNat - 4 = 0 ∧ accepted.busy := by decide

theorem witness_ReadsHaveNoSideEffect : busRead base 4 4 = .ok (0, base) := by decide

/-- A step from DONE, and one from ERROR after DONE. -/
theorem witness_StreamStableAfterDone :
    (¬ finished.busy ∧ finished.jobState = .done ∧ step finished = .next finished ∧ nextCommand finished = none)
      ∧ (let failedLater := finished.raiseBlockError .illegalCmd
         ¬ failedLater.busy ∧ failedLater.outLen = 1 ∧ step failedLater = .next failedLater ∧ nextCommand failedLater = none) :=
  ⟨⟨by decide, by decide, rfl, by decide⟩, by decide, by decide, rfl, by decide⟩

theorem witness_GrayLaws :
    ((0xFF000000 : Word).extractLsb' 0 8).toNat ≤ ((0xFF0000FF : Word).extractLsb' 0 8).toNat
      ∧ ((0xFF000000 : Word).extractLsb' 8 8).toNat ≤ ((0xFF0000FF : Word).extractLsb' 8 8).toNat
      ∧ ((0xFF000000 : Word).extractLsb' 16 8).toNat ≤ ((0xFF0000FF : Word).extractLsb' 16 8).toNat := by decide

theorem witness_QuantizeRule :
    (-127 : Int) ≤ -127 ∧ (-127 : Int) ≤ 382 ∧ (-127 : Int) ≤ 382 ∧ (382 : Int) ≤ 382 ∧ (-127 : Int) ≤ 128 := by decide

theorem witness_ShareLaws : (0 : Int) ≤ 7 ∧ (0 : Int) ≤ 127 := by decide

theorem witness_DiffuseRule :
    (ErrPlane.zero 3 2).length = 2 ∧ (∀ row ∈ ErrPlane.zero 3 2, row.length = 3) ∧ 2 < 3 ∧ 1 < 2
      ∧ (-127 : Int) ≤ -127 ∧ (127 : Int) ≤ 127
      ∧ ∀ y x, -16384 ≤ (ErrPlane.get (ErrPlane.zero 3 2) y x).toInt
          ∧ (ErrPlane.get (ErrPlane.zero 3 2) y x).toInt ≤ 16383 := by
  refine ⟨by decide, by decide, by decide, by decide, by decide, by decide, fun y x => ?_⟩
  have h : ErrPlane.get (ErrPlane.zero 3 2) y x = 0 := by
    match y, x with
    | 0, 0 => rfl
    | 0, 1 => rfl
    | 0, 2 => rfl
    | 0, _ + 3 => rfl
    | 1, 0 => rfl
    | 1, 1 => rfl
    | 1, 2 => rfl
    | 1, _ + 3 => rfl
    | _ + 2, _ => rfl
  rw [h]; decide

theorem witness_OutputLengthRule : 16 % 8 = 0 := by decide

theorem witness_PackFrameBits : 8 < 9 ∧ 0 < 1 ∧ 9 % 8 ≠ 0 ∧ 9 % 8 ≤ 1 ∧ 7 < 8 ∧ 9 * 1 % 8 ≠ 0 ∧ 9 * 1 % 8 ≤ 7 := by decide

theorem witness_UnpackInvertsPack : 8 < 9 ∧ 1 < 2 := by decide

theorem witness_PackModesAgree : 8 % 8 = 0 := by decide

theorem witness_PureLevelsPassUnchanged :
    ∀ y x, y < 2 → x < 2 → (if y = x then 255 else 0) = 0 ∨ (if y = x then 255 else 0) = 255 := by
  intro y x _ _; split <;> simp

theorem witness_PureLevels_pixels : 4 ≤ 2 * 2 := by decide

theorem witness_TwoRowBuffersSuffice : 6 ≤ 3 * 2 := by decide

/-- A written pixel (the last of its image) and an unwritten one. -/
theorem witness_JobStepEffect :
    accepted.busy ∧ accepted.cy.toNat < accepted.jh.toNat ∧ accepted.cx.toNat < accepted.jw.toNat
      ∧ accepted.imgWord (accepted.cy.toNat * accepted.jw.toNat + accepted.cx.toNat) = some 0xFFFFFFFF
      ∧ { accepted with img := [] }.imgWord 0 = none := by decide

theorem witness_CompletionStep : scannedOne.busy ∧ scannedOne.cy = scannedOne.jh ∧ Inv scannedOne :=
  ⟨by decide, by decide, scannedOne_inv⟩

theorem witness_OutBytesWrittenInOrder :
    Inv accepted ∧ accepted.busy ∧ accepted.cy.toNat < accepted.jh.toNat ∧ engineMove accepted = .next scannedOne
      ∧ Inv scannedOne ∧ scannedOne.busy ∧ scannedOne.cy = scannedOne.jh :=
  ⟨accepted_inv, by decide, by decide, rfl, scannedOne_inv, by decide, by decide⟩

theorem witness_ErrorBounds : Inv accepted ∧ accepted.busy ∧ accepted.cy.toNat < accepted.jh.toNat :=
  ⟨accepted_inv, by decide, by decide⟩

/-- An invalid geometry, and a valid one with each capacity at the ends of its range. -/
theorem witness_ConstructionChecksGeometry :
    ¬ (3 * 3 % 8 = 0) ∧ (1 ≤ 8 ∧ 8 ≤ 65535 ∧ 1 ≤ 1 ∧ 1 ≤ 65535 ∧ 8 * 1 % 8 = 0) ∧ (8 * 1 ≤ 8 ∧ 8 ≤ 2 ^ 20)
      ∧ (1 * ((8 + 7) / 8) ≤ 1 ∧ 1 ≤ 2 ^ 22) ∧ (8 * 1 ≤ 1048576 ∧ 1048576 ≤ 2 ^ 20)
      ∧ (1 * ((8 + 7) / 8) ≤ 4194304 ∧ 4194304 ≤ 2 ^ 22) := by decide

theorem witness_StepKeepsInv : Inv accepted ∧ step accepted = .next scannedOne := ⟨accepted_inv, rfl⟩

theorem accepted_run :
    (∀ j < 2, ∃ u, run j accepted = .next u ∧ u.busy) ∧ run 2 accepted = .next finished ∧ finished.jobState = .done := by
  refine ⟨fun j hj => ?_, rfl, by decide⟩
  match j, hj with
  | 0, _ => exact ⟨accepted, rfl, by decide⟩
  | 1, _ => exact ⟨scannedOne, rfl, by decide⟩

theorem witness_JobComputesReferenceFrame :
    ¬ onePixel.busy ∧ exec .process onePixel = .next accepted ∧ (∀ j < 2, ∃ u, run j accepted = .next u ∧ u.busy)
      ∧ run 2 accepted = .next finished ∧ finished.jobState = .done ∧ onePixel.imgWord 0 = some 0xFFFFFFFF :=
  ⟨by decide, rfl, accepted_run.1, accepted_run.2.1, accepted_run.2.2, by decide⟩

/-- The job of `onePixel` with a host read before its one job step, and the states where the engine and the host move. -/
theorem witness_JobTakesExactlyItsSteps_interleaved :
    let s := (onePixel.setProg [.rd 4 4 0]).setTurns [.host, .engine, .engine]
    let s1 := (accepted.setProg [.rd 4 4 0]).setTurns [.host, .engine, .engine]
    ¬ s.busy ∧ exec .process s = .next s1 ∧ mover s1 = .host ∧ nextCommand s1 = none
      ∧ (∀ j ≤ 1, ∃ v, run j s1 = .next v ∧ v.busy) ∧ (∃ u, run 1 s1 = .next u ∧ mover u = .engine ∧ engineTurns 1 s1 = 0) := by
  refine ⟨by decide, rfl, rfl, rfl, fun j hj => ?_, ⟨_, rfl, rfl, rfl⟩⟩
  match j, hj with
  | 0, _ => exact ⟨_, rfl, rfl⟩
  | 1, _ => exact ⟨_, rfl, rfl⟩

theorem witness_JobTakesExactlyItsSteps :
    ¬ onePixel.busy ∧ exec .process onePixel = .next accepted ∧ accepted.busy ∧ accepted.turns = [] :=
  ⟨by decide, rfl, by decide, by decide⟩

/-- A job with one pixel left, a host that reads STATUS, and the engine's two turns among the host's. -/
theorem witness_FairSchedulesFinishTheJob :
    let s := (accepted.setProg [.rd 4 4 0]).setTurns [.host, .engine, .host, .engine]
    s.busy ∧ JobInv s ∧ ProgramDefined s ∧ (∀ op ∈ s.prog, opResets op = false)
      ∧ pixelsLeft s + 1 ≤ s.turns.count .engine := by
  refine ⟨by decide, ?_, by unfold ProgramDefined; decide, by decide, by decide⟩
  refine ⟨?_, ?_, ?_, ?_, ?_, ?_, .inl ?_, ?_, ?_, ?_, ?_, ?_, ?_⟩ <;> decide

/-- The job of `onePixel` twice, once from power-on and once from ERROR. -/
theorem witness_OutputDependsOnImageAlone :
    let other := { onePixel with jobState := .error, err := .illegalCmd }
    ¬ other.busy ∧ exec .process other = .next accepted ∧ other.imgW = onePixel.imgW ∧ other.imgH = onePixel.imgH
      ∧ other.params = onePixel.params
      ∧ ∀ n < onePixel.imgW.toNat * onePixel.imgH.toNat,
          onePixel.imgWord n ≠ none ∧ other.imgWord n = onePixel.imgWord n :=
  ⟨by decide, rfl, by decide, by decide, by decide, by decide⟩

/-- The last pixel with a 24-bit address and the first without, a `display` of 2 x 1 pixels and one with a pixel missing. -/
theorem witness_PseudoExpansions :
    (0xFFFFFC : Addr).toNat = 0x400000 + 4 * (0x2FFFFF * 1 + 0) ∧ 2 ^ 24 ≤ 0x400000 + 4 * (0x300000 * 1 + 0)
      ∧ ([1, 2] : List Word).length = (2 : Word).toNat * (1 : Word).toNat
      ∧ 4 * ((2 : Word).toNat * (1 : Word).toNat) ≤ 0xC00000
      ∧ ([1] : List Word).length ≠ (2 : Word).toNat * (1 : Word).toNat ∧ 1 < (2 : Word).toNat ∧ 0 < (1 : Word).toNat := by decide

end Sys2Proof.Tests
end

/-! SUPPORT. Proofs about the state, its registers and its invariant (spec 10_state.md). -/

namespace Sys2Proof.Machine
open Sys2Proof.Safety

/-! ## The error plane after Diffuse -/

/-- What Diffuse of error e at pixel (x, y) adds to entry (x', y') of the image (R91). -/
def diffusedShare (x y : Nat) (e : Int) (y' x' : Nat) : Int :=
  if y' = y ∧ x' = x + 1 then share Config.kRight e
  else if y' = y + 1 ∧ x' + 1 = x then share Config.kBelowLeft e
  else if y' = y + 1 ∧ x' = x then share Config.kBelow e
  else if y' = y + 1 ∧ x' = x + 1 then share Config.kBelowRight e
  else 0

/-- The most that a share of pixel (x, y) changes entry (x', y') by: the shares of an error of 127 (R93). -/
def diffusedReach (x y y' x' : Nat) : Int :=
  if y' = y ∧ x' = x + 1 then 55
  else if y' = y + 1 ∧ x' + 1 = x then 23
  else if y' = y + 1 ∧ x' = x then 39
  else if y' = y + 1 ∧ x' = x + 1 then 7
  else 0

theorem diffusedShare_le_reach {e : Int} (he : -127 ≤ e ∧ e ≤ 127) (x y y' x' : Nat) :
    -diffusedReach x y y' x' ≤ diffusedShare x y e y' x' ∧ diffusedShare x y e y' x' ≤ diffusedReach x y y' x' := by
  obtain ⟨hr, hbl, hb, hbr⟩ := share_bounds he
  unfold diffusedShare diffusedReach
  split
  · exact hr
  split
  · exact hbl
  split
  · exact hb
  split
  · exact hbr
  · omega

/-- One guarded update of Diffuse adds its share to the target entry and to no other. -/
theorem ErrPlane.get_addIf {p : ErrPlane} {W H y x : Nat} {d : Int} {G : Prop} [Decidable G]
    (hp : ErrPlane.sized p W H) (hG : G → y < H ∧ x < W)
    (hb : -32768 ≤ (ErrPlane.get p y x).toInt + d ∧ (ErrPlane.get p y x).toInt + d < 32768) (y' x' : Nat) :
    (ErrPlane.get (if G then ErrPlane.add p y x d else p) y' x').toInt
      = (ErrPlane.get p y' x').toInt + if G ∧ y' = y ∧ x' = x then d else 0 := by
  by_cases h : G
  · simp only [h, if_true, true_and]
    exact ErrPlane.get_add hp (hG h).1 (hG h).2 d y' x' hb
  · simp [h]

theorem ErrPlane.sized_addIf {p : ErrPlane} {W H : Nat} {G : Prop} [Decidable G] (hp : ErrPlane.sized p W H)
    (y x : Nat) (d : Int) : ErrPlane.sized (if G then ErrPlane.add p y x d else p) W H := by
  split
  · exact ErrPlane.sized_add hp y x d
  · exact hp

theorem ErrPlane.sized_diffuse {p : ErrPlane} {W H : Nat} (hp : ErrPlane.sized p W H) (x y : Nat) (e : Int) :
    ErrPlane.sized (ErrPlane.diffuse p W H x y e) W H :=
  ErrPlane.sized_addIf (ErrPlane.sized_addIf (ErrPlane.sized_addIf (ErrPlane.sized_addIf hp _ _ _) _ _ _) _ _ _) _ _ _

/-- R91, R92: Diffuse adds its shares exactly, while the entries keep clear of the ends of an s16. -/
theorem ErrPlane.get_diffuse {p : ErrPlane} {W H x y : Nat} {e : Int} (hp : ErrPlane.sized p W H)
    (hx : x < W) (hy : y < H) (he : -127 ≤ e ∧ e ≤ 127)
    (hb : ∀ y' x', -16384 ≤ (ErrPlane.get p y' x').toInt ∧ (ErrPlane.get p y' x').toInt ≤ 16383)
    {y' x' : Nat} (hy' : y' < H) (hx' : x' < W) :
    (ErrPlane.get (ErrPlane.diffuse p W H x y e) y' x').toInt
      = (ErrPlane.get p y' x').toInt + diffusedShare x y e y' x' := by
  obtain ⟨hr, hbl, hbw, hbr⟩ := share_bounds he
  have s1 := ErrPlane.sized_addIf (G := x + 1 < W) hp y (x + 1) (share Config.kRight e)
  have s2 := ErrPlane.sized_addIf (G := y + 1 < H ∧ 1 ≤ x) s1 (y + 1) (x - 1) (share Config.kBelowLeft e)
  have s3 := ErrPlane.sized_addIf (G := y + 1 < H) s2 (y + 1) x (share Config.kBelow e)
  have g1 := ErrPlane.get_addIf (G := x + 1 < W) (y := y) (x := x + 1) (d := share Config.kRight e) hp
    (fun h => ⟨hy, h⟩) (by have := hb y (x + 1); omega)
  have g2 := ErrPlane.get_addIf (G := y + 1 < H ∧ 1 ≤ x) (y := y + 1) (x := x - 1)
    (d := share Config.kBelowLeft e) s1 (fun h => ⟨h.1, by omega⟩)
    (by rw [g1]; have := hb (y + 1) (x - 1); split <;> omega)
  have g3 := ErrPlane.get_addIf (G := y + 1 < H) (y := y + 1) (x := x) (d := share Config.kBelow e) s2
    (fun h => ⟨h, hx⟩) (by rw [g2, g1]; have := hb (y + 1) x; split <;> split <;> omega)
  have g4 := ErrPlane.get_addIf (G := y + 1 < H ∧ x + 1 < W) (y := y + 1) (x := x + 1)
    (d := share Config.kBelowRight e) s3 id
    (by rw [g3, g2, g1]; have := hb (y + 1) (x + 1); split <;> split <;> split <;> omega)
  refine (g4 y' x').trans ?_
  rw [g3, g2, g1]
  unfold diffusedShare
  by_cases h1 : y' = y ∧ x' = x + 1
  · obtain ⟨rfl, rfl⟩ := h1
    simp [hx']
  by_cases h2 : y' = y + 1 ∧ x' + 1 = x
  · obtain ⟨rfl, rfl⟩ := h2
    simp [hy']
    omega
  by_cases h3 : y' = y + 1 ∧ x' = x
  · obtain ⟨rfl, rfl⟩ := h3
    simp [hy']
    omega
  by_cases h4 : y' = y + 1 ∧ x' = x + 1
  · obtain ⟨rfl, rfl⟩ := h4
    simp [hy', hx']
    omega
  · have h5 : ¬ ((y + 1 < H ∧ 1 ≤ x) ∧ y' = y + 1 ∧ x' = x - 1) := by omega
    simp [h1, h2, h3, h4, h5]

/-! ## The cursor -/

/-- In row-major order the last pixel is the last of the last row. -/
theorem pixelIndex_last_iff {W H x y : Nat} (hx : x < W) (hy : y < H) :
    y * W + x + 1 = W * H ↔ x + 1 = W ∧ y + 1 = H := by
  constructor
  · intro h
    have hH : y + 1 = H := by
      by_contra hne
      have := Nat.mul_le_mul_left W (show y + 2 ≤ H by omega)
      rw [Nat.mul_add, Nat.mul_comm W y] at this
      omega
    subst hH
    rw [Nat.mul_add, Nat.mul_comm W y] at h
    omega
  · rintro ⟨rfl, rfl⟩
    ring

theorem pixelIndex_lt {W H x y : Nat} (hx : x < W) (hy : y < H) : y * W + x < W * H := by
  have := Nat.mul_le_mul_left W (Nat.succ_le_of_lt hy)
  rw [Nat.mul_succ, Nat.mul_comm W y] at this
  omega

/-- The job of t is that of s with the cursor one pixel further, in row-major order (R75, R85). -/
structure Advanced (s t : State) : Prop where
  params : t.params = s.params
  jw : t.jw = s.jw
  jh : t.jh = s.jh
  jbpr : t.jbpr = s.jbpr
  jlen : t.jlen = s.jlen
  cursor : (s.cx.toNat + 1 < s.jw.toNat ∧ t.cy.toNat = s.cy.toNat ∧ t.cx.toNat = s.cx.toNat + 1)
    ∨ (s.cx.toNat + 1 = s.jw.toNat ∧ t.cy.toNat = s.cy.toNat + 1 ∧ t.cx.toNat = 0)

/-- Whether the pixel under the cursor completes the packer's byte (R103). -/
def completesByte (s : State) : Bool :=
  byteComplete s.params.rowPad s.jw.toNat s.jh.toNat (packerCount s + 1) s.cx.toNat s.cy.toNat

theorem Advanced.cursorInRange {s t : State} (ha : Advanced s t) (hy : s.cy.toNat < s.jh.toNat) :
    CursorInRange t := by
  unfold CursorInRange
  rw [ha.jw, ha.jh]
  rcases ha.cursor with ⟨hlt, hcy, hcx⟩ | ⟨_, hcy, hcx⟩
  · exact .inl (by omega)
  · by_cases hend : s.cy.toNat + 1 = s.jh.toNat
    · exact .inr ⟨BitVec.eq_of_toNat_eq (by omega), BitVec.eq_of_toNat_eq (by simpa using hcx)⟩
    · exact .inl (by omega)

/-- One more pixel is scanned, the one under the cursor. -/
theorem Advanced.scanned_iff {s t : State} (ha : Advanced s t) {y' x' : Nat} (hx' : x' < s.jw.toNat) :
    scanned t y' x' ↔ scanned s y' x' ∨ (y' = s.cy.toNat ∧ x' = s.cx.toNat) := by
  unfold scanned
  rcases ha.cursor with ⟨_, hcy, hcx⟩ | ⟨_, hcy, hcx⟩ <;> rw [hcy, hcx] <;> omega

/-- A term of the reach grows by its weight where one more pixel sends a share. -/
theorem reachTerm_add {P Q C : Prop} [Decidable P] [Decidable Q] [Decidable C] (c : Int)
    (h : P ↔ Q ∨ C) (hn : C → ¬ Q) : (if P then c else 0) = (if Q then c else 0) + if C then c else 0 := by
  by_cases hC : C
  · simp [h, hC, hn hC]
  · simp [h, hC]

/-- Of the four places a pixel sends shares to, an entry is at most one. -/
theorem diffusedReach_eq_sum (x y y' x' : Nat) :
    diffusedReach x y y' x' = (if y' = y ∧ x' = x + 1 then 55 else 0) + (if y' = y + 1 ∧ x' + 1 = x then 23 else 0)
      + (if y' = y + 1 ∧ x' = x then 39 else 0) + (if y' = y + 1 ∧ x' = x + 1 then 7 else 0) := by
  unfold diffusedReach
  split_ifs <;> omega

/-- The reach of an entry grows by what the pixel under the cursor can send to it (R93). -/
theorem Advanced.errReach_eq {s t : State} (ha : Advanced s t) (hx : s.cx.toNat < s.jw.toNat) {y' x' : Nat}
    (hx' : x' < s.jw.toNat) :
    errReach t y' x' = errReach s y' x' + diffusedReach s.cx.toNat s.cy.toNat y' x' := by
  have hs : ¬ scanned s s.cy.toNat s.cx.toNat := by unfold scanned; omega
  have left := reachTerm_add (P := 1 ≤ x' ∧ scanned t y' (x' - 1)) (Q := 1 ≤ x' ∧ scanned s y' (x' - 1))
    (C := y' = s.cy.toNat ∧ x' = s.cx.toNat + 1) 55
    (by rw [ha.scanned_iff (by omega)]; omega) (by unfold scanned; omega)
  have aboveRight := reachTerm_add (P := 1 ≤ y' ∧ x' + 1 < s.jw.toNat ∧ scanned t (y' - 1) (x' + 1))
    (Q := 1 ≤ y' ∧ x' + 1 < s.jw.toNat ∧ scanned s (y' - 1) (x' + 1))
    (C := y' = s.cy.toNat + 1 ∧ x' + 1 = s.cx.toNat) 23
    (by
      by_cases h : x' + 1 < s.jw.toNat
      · rw [ha.scanned_iff h]; omega
      · omega) (by unfold scanned; omega)
  have above := reachTerm_add (P := 1 ≤ y' ∧ scanned t (y' - 1) x') (Q := 1 ≤ y' ∧ scanned s (y' - 1) x')
    (C := y' = s.cy.toNat + 1 ∧ x' = s.cx.toNat) 39
    (by rw [ha.scanned_iff hx']; omega) (by unfold scanned; omega)
  have aboveLeft := reachTerm_add (P := 1 ≤ y' ∧ 1 ≤ x' ∧ scanned t (y' - 1) (x' - 1))
    (Q := 1 ≤ y' ∧ 1 ≤ x' ∧ scanned s (y' - 1) (x' - 1))
    (C := y' = s.cy.toNat + 1 ∧ x' = s.cx.toNat + 1) 7
    (by rw [ha.scanned_iff (by omega)]; omega) (by unfold scanned; omega)
  unfold errReach
  rw [ha.jw, left, aboveRight, above, aboveLeft, diffusedReach_eq_sum]
  ring

/-- The index of the pixel under the cursor grows by one (R85). -/
theorem Advanced.index_eq {s t : State} (ha : Advanced s t) :
    t.cy.toNat * t.jw.toNat + t.cx.toNat = s.cy.toNat * s.jw.toNat + s.cx.toNat + 1 := by
  rw [ha.jw]
  rcases ha.cursor with ⟨_, hcy, hcx⟩ | ⟨hend, hcy, hcx⟩ <;> rw [hcy, hcx]
  · omega
  · rw [Nat.succ_mul]; omega

/-- The cursor leaves the image exactly after the last pixel. -/
theorem Advanced.atEnd_iff {s t : State} (ha : Advanced s t) (hx : s.cx.toNat < s.jw.toNat)
    (hy : s.cy.toNat < s.jh.toNat) :
    t.cy = t.jh ↔ s.cy.toNat * s.jw.toNat + s.cx.toNat + 1 = s.jw.toNat * s.jh.toNat := by
  rw [pixelIndex_last_iff hx hy, ha.jh, BitVec.toNat_eq]
  rcases ha.cursor with ⟨_, hcy, _⟩ | ⟨_, hcy, _⟩ <;> rw [hcy] <;> omega

/-- The packer holds one pixel more, or none where the byte is complete (R103). -/
theorem Advanced.packerCount_eq {s t : State} (ha : Advanced s t) (hx : s.cx.toNat < s.jw.toNat)
    (hy : s.cy.toNat < s.jh.toNat) : packerCount t = if completesByte s then 0 else packerCount s + 1 := by
  have hne : s.cy ≠ s.jh := fun h => by rw [h] at hy; omega
  cases hp : s.params.rowPad with
  | true =>
    simp only [packerCount, completesByte, byteComplete, ha.params, hp, if_true, Bool.or_eq_true, decide_eq_true_eq]
    rcases ha.cursor with ⟨_, _, hcx⟩ | ⟨_, _, hcx⟩ <;> rw [hcx] <;> split <;> omega
  | false =>
    simp only [packerCount, completesByte, byteComplete, ha.params, hp, Bool.false_eq_true, if_false, hne,
      ha.atEnd_iff hx hy, ha.index_eq, Bool.or_eq_true, decide_eq_true_eq]
    split <;> split <;> omega

/-- One byte more is written where the pixel under the cursor completes it (R105). -/
theorem Advanced.bytesWritten_eq {s t : State} (ha : Advanced s t) (hj : JobInv s) (hx : s.cx.toNat < s.jw.toNat)
    (hy : s.cy.toNat < s.jh.toNat) :
    bytesWritten t = if completesByte s then bytesWritten s + 1 else bytesWritten s := by
  have hne : s.cy ≠ s.jh := fun h => by rw [h] at hy; omega
  cases hp : s.params.rowPad with
  | true =>
    have hbpr := hj.rowBytes
    simp only [hp, bytesPerRow, if_true, ceil8_eq] at hbpr
    simp only [bytesWritten, packerCount, completesByte, byteComplete, ha.params, ha.jbpr, hp, if_true,
      Bool.or_eq_true, decide_eq_true_eq]
    rcases ha.cursor with ⟨_, hcy, hcx⟩ | ⟨_, hcy, hcx⟩ <;> rw [hcy, hcx]
    · split <;> omega
    · rw [if_pos (.inr ‹_›), Nat.succ_mul]
      omega
  | false =>
    have hlen := hj.length
    simp only [hp, outputLength, Bool.false_eq_true, if_false, ceil8_eq] at hlen
    simp only [bytesWritten, packerCount, completesByte, byteComplete, ha.params, ha.jlen, hp, Bool.false_eq_true,
      if_false, hne, ha.atEnd_iff hx hy, ha.index_eq, Bool.or_eq_true, decide_eq_true_eq]
    split <;> split <;> omega

/-! ## Bounds and bits of one pixel -/

/-- R89: the quantisation error of a value in Quantize's range. -/
theorem quantize_error_bounds {v : Int} (h : -127 ≤ v ∧ v ≤ 382) : -127 ≤ (quantize v).2 ∧ (quantize v).2 ≤ 127 := by
  rw [quantize_eq]
  split <;> omega

/-- An entry outside the plane reads as 0. -/
theorem ErrPlane.get_outside {p : ErrPlane} {W H : Nat} (hp : ErrPlane.sized p W H) {y x : Nat}
    (h : ¬ (y < H ∧ x < W)) : ErrPlane.get p y x = 0 := by
  have hrow : (p.getD y []).length ≤ x := by
    by_cases hy : y < H
    · rw [ErrPlane.row_length hp hy]; omega
    · rw [List.getD_eq_default _ _ (by rw [hp.1]; omega)]; simp
  rw [ErrPlane.get, List.getD_eq_default _ _ hrow]

/-- R103: the bits of a packer byte below the pixels it holds stay clear when the next pixel is shifted in. -/
theorem shiftIn_clear {pk : Byte} {pkn : Nat} (hn : pkn < 8) (h : pk.toNat % 2 ^ (8 - pkn) = 0) (b : BitVec 1) :
    (shiftIn pk pkn b).toNat % 2 ^ (8 - (pkn + 1)) = 0 := by
  have hpk : pk.toNat % 2 ^ (7 - pkn) = 0 :=
    Nat.mod_eq_zero_of_dvd ((pow_dvd_pow 2 (by omega)).trans (Nat.dvd_of_mod_eq_zero h))
  have hbit : (b.setWidth 8 <<< (7 - pkn) : Byte).toNat % 2 ^ (7 - pkn) = 0 := by
    rw [BitVec.toNat_shiftLeft, Nat.shiftLeft_eq, Nat.mod_mod_of_dvd _ (pow_dvd_pow 2 (by omega)), Nat.mul_mod_left]
  rw [shiftIn, BitVec.toNat_or, show 8 - (pkn + 1) = 7 - pkn by omega, Nat.or_mod_two_pow, hpk, hbit, Nat.or_zero]

end Sys2Proof.Machine

namespace Sys2Proof.Safety
open Sys2Proof.Machine

/-! ## A job under the invariant -/

theorem JobInv.cx_lt {s : State} (hj : JobInv s) (hy : s.cy.toNat < s.jh.toNat) : s.cx.toNat < s.jw.toNat := by
  rcases hj.cursor with h | ⟨h, _⟩
  · exact h.2
  · rw [h] at hy; omega

theorem JobInv.sized {s : State} (hj : JobInv s) : ErrPlane.sized s.errPlane s.jw.toNat s.jh.toNat :=
  ⟨hj.rows, hj.columns⟩

theorem errReach_le (s : State) (y x : Nat) : errReach s y x ≤ 124 := by
  unfold errReach
  split_ifs <;> omega

theorem errReach_nonneg (s : State) (y x : Nat) : 0 ≤ errReach s y x := by
  unfold errReach
  split_ifs <;> omega

/-- The bound of R93 holds of every position, for one outside the image reads as 0. -/
theorem JobInv.entry_bounds {s : State} (hj : JobInv s) (y x : Nat) :
    -124 ≤ (ErrPlane.get s.errPlane y x).toInt ∧ (ErrPlane.get s.errPlane y x).toInt ≤ 124 := by
  by_cases h : y < s.jh.toNat ∧ x < s.jw.toNat
  · have := hj.errSmall y h.1 x h.2
    have := errReach_le s y x
    omega
  · simp [ErrPlane.get_outside hj.sized h]

/-- R93: the accumulated value of any gray value stays clear of the ends of Quantize's range. -/
theorem JobInv.accumulate_bounds {s : State} (hj : JobInv s) (x y : Nat) (g : Byte) :
    -124 ≤ s.accumulate x y g ∧ s.accumulate x y g ≤ 379 := by
  have := hj.entry_bounds y x
  have := g.isLt
  unfold State.accumulate
  omega

theorem JobInv.pkn_lt {s : State} (hj : JobInv s) : s.pkn < 8 := by
  rw [hj.packed]
  unfold packerCount
  split
  · omega
  · split <;> omega

/-- The byte under way is the next one in increasing order (R105). -/
theorem byteIndex_eq_bytesWritten {s : State} (hy : s.cy.toNat < s.jh.toNat) :
    byteIndex s.params.rowPad s.jw.toNat s.jbpr.toNat s.cx.toNat s.cy.toNat = bytesWritten s := by
  have hne : s.cy ≠ s.jh := fun h => by rw [h] at hy; omega
  simp [byteIndex, bytesWritten, hne, Nat.shiftRight_eq_div_pow]

/-- While a pixel is left, so is a byte below JLEN (R105). -/
theorem JobInv.bytesWritten_lt {s : State} (hj : JobInv s) (hy : s.cy.toNat < s.jh.toNat) :
    bytesWritten s < s.jlen.toNat := by
  have hne : s.cy ≠ s.jh := fun h => by rw [h] at hy; omega
  have hx := hj.cx_lt hy
  have hbpr := hj.rowBytes
  rw [hj.length]
  cases hp : s.params.rowPad with
  | true =>
    simp only [hp, bytesPerRow, if_true, ceil8_eq] at hbpr
    simp only [bytesWritten, outputLength, hp, if_true, ceil8_eq, ← hbpr, Nat.mul_comm s.jh.toNat]
    exact pixelIndex_lt (by omega) hy
  | false =>
    have := pixelIndex_lt hx hy
    simp only [bytesWritten, outputLength, hp, Bool.false_eq_true, if_false, hne, ceil8_eq]
    omega

/-- At the end of the image every byte below JLEN is written (R105). -/
theorem JobInv.bytesWritten_end {s : State} (hj : JobInv s) (hy : s.cy = s.jh) : bytesWritten s = s.jlen.toNat := by
  have hx : s.cx.toNat = 0 := by
    rcases hj.cursor with h | ⟨_, h⟩
    · rw [hy] at h; omega
    · simp [h]
  have hbpr := hj.rowBytes
  cases hp : s.params.rowPad with
  | true =>
    rw [hj.length]
    simp only [hp, bytesPerRow, if_true] at hbpr
    simp [bytesWritten, outputLength, hp, hbpr, hx, hy]
  | false => simp [bytesWritten, hp, hy]

end Sys2Proof.Safety

namespace Sys2Proof.Machine
open Sys2Proof.Safety

/-! ## What a job step does to the job -/

/-- Where the cursor stands after pixel (x, y) (R75). -/
theorem State.advance_cursor {s : State} {x y : Nat} (hx : x < s.jw.toNat) (hy : y < s.jh.toNat) :
    (x + 1 < s.jw.toNat ∧ (s.advance x y).cy.toNat = y ∧ (s.advance x y).cx.toNat = x + 1)
      ∨ (x + 1 = s.jw.toNat ∧ (s.advance x y).cy.toNat = y + 1 ∧ (s.advance x y).cx.toNat = 0) := by
  have hw := s.jw.isLt
  have hh := s.jh.isLt
  unfold State.advance
  split
  · exact .inl ⟨‹_›, by simp [State.setCursor]; omega, by simp [State.setCursor]; omega⟩
  · exact .inr ⟨by omega, by simp [State.setCursor]; omega, by simp [State.setCursor]⟩

/-- Pack either completes the byte and writes it, or keeps it in the packer (R103). -/
theorem State.pack_cases (s : State) (x y : Nat) (white : Bool) :
    (byteComplete s.params.rowPad s.jw.toNat s.jh.toNat (s.pkn + 1) x y = true
        ∧ s.pack x y white = (s.writeOut (byteIndex s.params.rowPad s.jw.toNat s.jbpr.toNat x y)
            (shiftIn s.pk s.pkn (pixelBit s.params.inkBit white))).setPacker 0 0)
      ∨ (byteComplete s.params.rowPad s.jw.toNat s.jh.toNat (s.pkn + 1) x y = false
        ∧ s.pack x y white = s.setPacker (shiftIn s.pk s.pkn (pixelBit s.params.inkBit white)) (s.pkn + 1)) := by
  unfold State.pack
  cases h : byteComplete s.params.rowPad s.jw.toNat s.jh.toNat (s.pkn + 1) x y with
  | true => exact .inl ⟨rfl, by simp [h]⟩
  | false => exact .inr ⟨rfl, by simp [h]⟩

section DitherPack

variable {s : State} (p : Word)

/-- A job step moves the cursor to the next pixel (R75). -/
theorem ditherPack_advanced (hx : s.cx.toNat < s.jw.toNat) (hy : s.cy.toNat < s.jh.toNat) :
    Advanced s (s.ditherPack s.cx.toNat s.cy.toNat p) := by
  refine ⟨by simp, by simp, by simp, by simp, by simp, ?_⟩
  simp only [State.ditherPack]
  generalize quantize (s.accumulate s.cx.toNat s.cy.toNat (gray p)) = q
  simpa using State.advance_cursor (s := (s.diffuse s.cx.toNat s.cy.toNat q.2).pack s.cx.toNat s.cy.toNat q.1)
    (by simpa using hx) (by simpa using hy)

/-- A job step diffuses the quantisation error of its pixel (R75, R91). -/
theorem ditherPack_errPlane (x y : Nat) :
    (s.ditherPack x y p).errPlane
      = ErrPlane.diffuse s.errPlane s.jw.toNat s.jh.toNat x y (quantize (s.accumulate x y (gray p))).2 := by
  simp [State.ditherPack]

/-- A job step shifts its pixel's bit into the packer, and writes the byte that this completes (R75, R103). -/
theorem ditherPack_packer (hpkn : s.pkn = packerCount s) (hy : s.cy.toNat < s.jh.toNat) :
    ∃ b : BitVec 1,
      (completesByte s = true ∧ (s.ditherPack s.cx.toNat s.cy.toNat p).pk = 0
        ∧ (s.ditherPack s.cx.toNat s.cy.toNat p).pkn = 0
        ∧ (s.ditherPack s.cx.toNat s.cy.toNat p).out
            = Memory.write s.out (outAddr (bytesWritten s)) (shiftIn s.pk s.pkn b))
      ∨ (completesByte s = false ∧ (s.ditherPack s.cx.toNat s.cy.toNat p).pk = shiftIn s.pk s.pkn b
        ∧ (s.ditherPack s.cx.toNat s.cy.toNat p).pkn = s.pkn + 1
        ∧ (s.ditherPack s.cx.toNat s.cy.toNat p).out = s.out) := by
  simp only [State.ditherPack]
  generalize quantize (s.accumulate s.cx.toNat s.cy.toNat (gray p)) = q
  refine ⟨pixelBit s.params.inkBit q.1, ?_⟩
  have hpack := State.pack_cases (s.diffuse s.cx.toNat s.cy.toNat q.2) s.cx.toNat s.cy.toNat q.1
  simp only [State.diffuse_params, State.diffuse_jw, State.diffuse_jh, State.diffuse_jbpr, State.diffuse_pk,
    State.diffuse_pkn, byteIndex_eq_bytesWritten hy] at hpack
  unfold completesByte
  rw [← hpkn]
  rcases hpack with ⟨hc, h⟩ | ⟨hc, h⟩
  · exact .inl ⟨hc, by simp [h], by simp [h], by simp [h, outAddr]⟩
  · exact .inr ⟨hc, by simp [h], by simp [h], by simp [h]⟩

end DitherPack

end Sys2Proof.Machine

namespace Sys2Proof.Safety
open Sys2Proof.Machine

section DitherPack

variable {s : State} (hj : JobInv s) (hy : s.cy.toNat < s.jh.toNat) (p : Word)
include hj hy

/-- A job step keeps the bounds of the entries: each grows by no more than its reach (R93). -/
theorem JobInv.ditherPack_errSmall {y x : Nat} (hy' : y < s.jh.toNat) (hx' : x < s.jw.toNat) :
    -errReach (s.ditherPack s.cx.toNat s.cy.toNat p) y x
        ≤ (ErrPlane.get (s.ditherPack s.cx.toNat s.cy.toNat p).errPlane y x).toInt
      ∧ (ErrPlane.get (s.ditherPack s.cx.toNat s.cy.toNat p).errPlane y x).toInt
        ≤ errReach (s.ditherPack s.cx.toNat s.cy.toNat p) y x := by
  have hx := hj.cx_lt hy
  have hv := hj.accumulate_bounds s.cx.toNat s.cy.toNat (gray p)
  have he := quantize_error_bounds (v := s.accumulate s.cx.toNat s.cy.toNat (gray p)) (by omega)
  have hshare := diffusedShare_le_reach he s.cx.toNat s.cy.toNat y x
  have hold := hj.errSmall y hy' x hx'
  rw [(ditherPack_advanced p hx hy).errReach_eq hx hx', ditherPack_errPlane,
    ErrPlane.get_diffuse hj.sized hx hy he (fun y' x' => by have := hj.entry_bounds y' x'; omega) hy' hx']
  omega

/-- A job step keeps the invariant of the job. -/
theorem JobInv.ditherPack : JobInv (s.ditherPack s.cx.toNat s.cy.toNat p) := by
  have hx := hj.cx_lt hy
  have ha := ditherPack_advanced p hx hy
  have hsized := ErrPlane.sized_diffuse hj.sized s.cx.toNat s.cy.toNat
    (quantize (s.accumulate s.cx.toNat s.cy.toNat (gray p))).2
  rw [← ditherPack_errPlane p] at hsized
  have hcount := ha.packerCount_eq hx hy
  have hbytes := ha.bytesWritten_eq hj hx hy
  obtain ⟨b, hpack⟩ := ditherPack_packer p hj.packed hy
  exact {
    width := by simpa using hj.width
    height := by simpa using hj.height
    fitsImg := by simpa using hj.fitsImg
    rowBytes := by simpa using hj.rowBytes
    length := by simpa using hj.length
    fitsOut := by simpa using hj.fitsOut
    cursor := ha.cursorInRange hy
    rows := by simpa using hsized.1
    columns := by simpa using hsized.2
    errSmall := fun y hy' x hx' => hj.ditherPack_errSmall hy p (by simpa using hy') (by simpa using hx')
    packed := by
      rcases hpack with ⟨hc, _, hpkn, _⟩ | ⟨hc, _, hpkn, _⟩ <;> rw [hpkn, hcount, hc]
      · rfl
      · rw [hj.packed]; rfl
    packerClear := by
      rcases hpack with ⟨_, hpk, _, _⟩ | ⟨_, hpk, hpkn, _⟩ <;> rw [hpk]
      · simp
      · rw [hpkn]; exact shiftIn_clear hj.pkn_lt hj.packerClear b
    written := fun i hi => by
      rw [hbytes] at hi
      rcases hpack with ⟨hc, _, _, hout⟩ | ⟨hc, _, _, hout⟩ <;> rw [hc] at hi <;>
        rw [State.outByte, hout]
      · rw [Memory.read_write]
        split
        · simp
        · exact hj.written i (by unfold outAddr at *; simp at hi; omega)
      · exact hj.written i hi }

end DitherPack

end Sys2Proof.Safety

namespace Sys2Proof.Machine
open Sys2Proof.Safety

/-! ## What a step can do, with the cause of each effect

The effects of `Laws/Bus.lean` and `Laws/Step.lean` say what becomes of the state; those here say besides which word,
which address and whose move has each effect, as the rules on the writers of a register need. -/

/-- Every effect of a word written to CTRL, with the words and states that have it (40_commands.md R70 to R74). -/
inductive IssueEffect (s : State) (w : Word) : State → Prop
  | nop (hw : decodeWord w = .ok .nop) : IssueEffect s w s
  | rejected (hb : s.busy) (hw : decodeWord w = .ok .process ∨ ∃ r, decodeWord w = .error r) :
      IssueEffect s w s.setRej
  | refused (hb : ¬ s.busy) (hw : decodeWord w = .ok .process) (c : ErrCode) (hc : c.zeroesOutLen = true) :
      IssueEffect s w (s.raiseBlockError c)
  | illegal (hb : ¬ s.busy) (hw : ∃ r, decodeWord w = .error r) : IssueEffect s w (s.raiseBlockError .illegalCmd)
  | accepted (hb : ¬ s.busy) (hw : decodeWord w = .ok .process) (hW : s.imgW.toNat ≠ 0) (hH : s.imgH.toNat ≠ 0)
      (hi : s.imgW.toNat * s.imgH.toNat ≤ s.params.imgCap)
      (ho : outputLength s.params.rowPad s.imgW.toNat s.imgH.toNat ≤ s.params.outCap) :
      IssueEffect s w
        (s.acceptJob s.imgW.toNat s.imgH.toNat (outputLength s.params.rowPad s.imgW.toNat s.imgH.toNat))
  | abandoned (hw : decodeWord w = .ok .reset) : IssueEffect s w s.clearStatus.abandonJob

theorem issueCommand_of_decode {w : Word} {i : Instr} (s : State) (hw : decodeWord w = .ok i) :
    issueCommand s w = exec i s := by
  simp [issueCommand, hw]

theorem issueCommand_of_illegal {w : Word} {r : Illegal} (s : State) (hw : decodeWord w = .error r) :
    issueCommand s w = .next (illegalCommand s) := by
  simp [issueCommand, hw]

/-- A CTRL write answers a next state, with one of these causes. -/
theorem issueCommand_issueEffect (s : State) (w : Word) : ∃ t, issueCommand s w = .next t ∧ IssueEffect s w t := by
  cases hw : decodeWord w with
  | error r =>
    rw [issueCommand_of_illegal s hw]
    refine ⟨_, rfl, ?_⟩
    unfold illegalCommand
    split
    · exact .rejected ‹_› (.inr ⟨r, hw⟩)
    · exact .illegal ‹_› ⟨r, hw⟩
  | ok i =>
    rw [issueCommand_of_decode s hw]
    cases i with
    | nop => exact ⟨s, rfl, .nop hw⟩
    | reset => exact ⟨_, rfl, .abandoned hw⟩
    | process =>
      simp only [exec, execProcess]
      split
      · exact ⟨_, rfl, .rejected ‹_› (.inl hw)⟩
      · rename_i hb
        split
        · exact ⟨_, rfl, .refused hb hw .zeroSize rfl⟩
        · rename_i hz
          split
          · exact ⟨_, rfl, .refused hb hw .oversize rfl⟩
          · rename_i hfits
            simp only [State.tooLarge, Bool.or_eq_true, decide_eq_true_eq, not_or, Nat.not_lt] at hz hfits
            exact ⟨_, rfl, .accepted hb hw hz.1 hz.2 hfits.1 hfits.2⟩

/-- Every effect of a host write that answers a next state, with the address that has it (20_memory.md R38 to R41). -/
inductive BusWriteEffect (s : State) (a : Addr) (v : Word) : State → Prop
  | command (ha : a = 0) (t : State) (h : IssueEffect s v t) : BusWriteEffect s a v t
  | width (ha : a = 0x08) : BusWriteEffect s a v (s.writeImgW v)
  | height (ha : a = 0x0C) : BusWriteEffect s a v (s.writeImgH v)
  | image (ha : a.toNat % 4 = 0) (hr : regionOf s.params a.toNat = .img) :
      BusWriteEffect s a v (s.writeImg a.toNat v)
  | ignored (h0 : a ≠ 0) (hw : a ≠ 0x08) (hh : a ≠ 0x0C) (hr : regionOf s.params a.toNat ≠ .img) :
      BusWriteEffect s a v s

theorem busWrite_busWriteEffect {s t : State} {n : Nat} {a : Addr} {v : Word} (h : busWrite s n a v = .next t) :
    n = 4 ∧ BusWriteEffect s a v t := by
  unfold busWrite at h
  split at h
  · rename_i hd
    unfold writeDefined at hd
    unfold writeEffect at h
    cases hr : regionOf s.params a.toNat with
    | reg =>
      simp only [hr, alignedWord, Bool.and_eq_true, decide_eq_true_eq] at hd h
      refine ⟨hd.1, ?_⟩
      have hne : regionOf s.params a.toNat ≠ .img := by simp [hr]
      unfold regWrite at h
      split at h
      · rename_i ha
        obtain ⟨u, hu, he⟩ := issueCommand_issueEffect s v
        cases hu.symm.trans h
        exact .command (BitVec.eq_of_toNat_eq ha) t he
      · cases h
        exact .width (BitVec.eq_of_toNat_eq ‹_›)
      · cases h
        exact .height (BitVec.eq_of_toNat_eq ‹_›)
      · rename_i h0 h8 hC
        cases h
        exact .ignored (fun ha => h0 (by rw [ha]; rfl)) (fun ha => h8 (by rw [ha]; rfl))
          (fun ha => hC (by rw [ha]; rfl)) hne
    | img =>
      simp only [hr, alignedWord, Bool.and_eq_true, decide_eq_true_eq] at hd h
      cases h
      exact ⟨hd.1, .image hd.2 hr⟩
    | out => simp [hr] at hd
    | unmapped => simp [hr] at hd
  · cases h

/-- Where the host moves and its next access is a write, the step is that write (R51). -/
theorem step_write {s : State} {n : Nat} {a : Addr} {v : Word} {rest : List BusOp} (hm : mover s = .host)
    (hp : s.prog = .wr n a v :: rest) :
    step s = busWrite ((s.setTurns s.turns.tail).setProg rest) n a v := by
  simp [step_eq, hm, move, hostMove, hp, performOp]

/-- Every step that answers a next state, with its cause: the state with its turn and its access taken off is changed
by nothing but a command, a write of a dimension or of IMG, a job step or the completion step. -/
inductive StepChange (s : State) : State → Prop
  | quiet (ts : List Agent) (q : List BusOp) (d : Nat) (vs : List (Nat × Word)) :
      StepChange s { s with turns := ts, prog := q, draws := d, vars := vs }
  | command (hm : mover s = .host) (w : Word) (rest : List BusOp) (ts : List Agent) (hp : s.prog = .wr 4 0 w :: rest)
      (t : State) (h : IssueEffect ((s.setTurns ts).setProg rest) w t) : StepChange s t
  | width (hm : mover s = .host) (v : Word) (rest : List BusOp) (ts : List Agent)
      (hp : s.prog = .wr 4 0x08 v :: rest) : StepChange s (((s.setTurns ts).setProg rest).writeImgW v)
  | height (hm : mover s = .host) (v : Word) (rest : List BusOp) (ts : List Agent)
      (hp : s.prog = .wr 4 0x0C v :: rest) : StepChange s (((s.setTurns ts).setProg rest).writeImgH v)
  | image (hm : mover s = .host) (a : Addr) (v : Word) (rest : List BusOp) (ts : List Agent)
      (hp : s.prog = .wr 4 a v :: rest) (ha : a.toNat % 4 = 0) (hr : regionOf s.params a.toNat = .img) :
      StepChange s (((s.setTurns ts).setProg rest).writeImg a.toNat v)
  | pixel (hm : mover s = .engine) (hb : s.busy) (hy : s.cy.toNat < s.jh.toNat) (ts : List Agent) :
      StepChange s (s.setTurns ts).jobStep
  | finish (hm : mover s = .engine) (hb : s.busy) (hy : s.cy = s.jh) (ts : List Agent) :
      StepChange s (s.setTurns ts).complete

theorem step_change {s t : State} (h : step s = .next t) : StepChange s t := by
  rcases step_effect h with ⟨hm, he⟩ | ⟨hm, he⟩
  · cases he with
    | idle => exact .quiet s.turns.tail s.prog s.draws s.vars
    | read n a dst rest v d => exact .quiet s.turns.tail rest d ((dst, v) :: s.vars)
    | waited dst rest hp q => exact .quiet s.turns.tail q s.draws ((dst, s.status) :: s.vars)
    | write n a v rest hp =>
      rw [step_write hm hp] at h
      obtain ⟨rfl, hw⟩ := busWrite_busWriteEffect h
      cases hw with
      | command ha _ hc => subst ha; exact .command hm v rest _ hp _ hc
      | width ha => subst ha; exact .width hm v rest _ hp
      | height ha => subst ha; exact .height hm v rest _ hp
      | image ha hr => exact .image hm a v rest _ hp ha hr
      | ignored => exact .quiet s.turns.tail rest s.draws s.vars
  · cases he with
    | idle => exact .quiet s.turns.tail s.prog s.draws s.vars
    | pixel hb hy => exact .pixel hm hb hy _
    | finish hb hy => exact .finish hm hb hy _

theorem nextCommand_of_ctrl {s : State} {w : Word} {rest : List BusOp} (hm : mover s = .host)
    (hp : s.prog = .wr 4 0 w :: rest) : nextCommand s = some w := by
  simp [nextCommand, hm, hp]

end Sys2Proof.Machine

namespace Sys2Proof.Safety
open Sys2Proof.Machine

/-! ## The invariant of the machine, effect by effect -/

/-- The invariant of the job says nothing of the fields written here: IMG_W, IMG_H, REJ, the host and the draws. -/
theorem JobInv.hostFields {s : State} (hj : JobInv s) (r : Bool) (w h : Half) (d : Nat) (q : List BusOp)
    (ts : List Agent) (vs : List (Nat × Word)) :
    JobInv { s with rej := r, imgW := w, imgH := h, draws := d, prog := q, turns := ts, vars := vs } :=
  ⟨hj.width, hj.height, hj.fitsImg, hj.rowBytes, hj.length, hj.fitsOut, hj.cursor, hj.rows, hj.columns, hj.errSmall,
    hj.packed, hj.packerClear, hj.written⟩

/-- Nor does the invariant of the machine, except that REJ is 0 in IDLE. -/
theorem Inv.hostFields {s : State} (hi : Inv s) {r : Bool} (hr : s.jobState = .idle → r = false) (w h : Half)
    (d : Nat) (q : List BusOp) (ts : List Agent) (vs : List (Nat × Word)) :
    Inv { s with rej := r, imgW := w, imgH := h, draws := d, prog := q, turns := ts, vars := vs } :=
  ⟨hi.imgCanonical, hi.outCanonical, hi.imgRegion, hi.imgWhole, hi.outRegion, hi.errCode,
    fun hs => ⟨hr hs, (hi.idleClear hs).2⟩, hi.busyLength, hi.outFits, hi.outListed,
    fun hb => (hi.job hb).hostFields r w h d q ts vs⟩

theorem Inv.idle_rej {s : State} (hi : Inv s) (hs : s.jobState = .idle) : s.rej = false := (hi.idleClear hs).1

theorem Inv.setTurns {s : State} (hi : Inv s) (ts : List Agent) : Inv (s.setTurns ts) :=
  hi.hostFields hi.idle_rej s.imgW s.imgH s.draws s.prog ts s.vars

theorem Inv.setProg {s : State} (hi : Inv s) (q : List BusOp) : Inv (s.setProg q) :=
  hi.hostFields hi.idle_rej s.imgW s.imgH s.draws q s.turns s.vars

theorem Inv.setRej {s : State} (hi : Inv s) (hb : s.busy) : Inv s.setRej :=
  hi.hostFields (r := true) (fun hs => absurd (State.busy_iff.1 hb) (by simp [hs])) s.imgW s.imgH s.draws s.prog
    s.turns s.vars

theorem Inv.idle_rejIfBusy {s : State} (hi : Inv s) (hs : s.jobState = .idle) : s.rejIfBusy = false := by
  simp [State.rejIfBusy, hi.idle_rej hs, State.busy, hs]

theorem Inv.writeImgW {s : State} (hi : Inv s) (v : Word) : Inv (s.writeImgW v) :=
  hi.hostFields hi.idle_rejIfBusy (v.setWidth 16) s.imgH s.draws s.prog s.turns s.vars

theorem Inv.writeImgH {s : State} (hi : Inv s) (v : Word) : Inv (s.writeImgH v) :=
  hi.hostFields hi.idle_rejIfBusy s.imgW (v.setWidth 16) s.draws s.prog s.turns s.vars

theorem Inv.raiseBlockError {s : State} (hi : Inv s) {c : ErrCode} (hc : c ≠ .none) : Inv (s.raiseBlockError c) where
  imgCanonical := hi.imgCanonical
  outCanonical := hi.outCanonical
  imgRegion := hi.imgRegion
  imgWhole := hi.imgWhole
  outRegion := hi.outRegion
  errCode := by simpa using hc
  idleClear := by simp
  busyLength := by simp
  outFits := by
    rw [State.raiseBlockError_outLen]
    split
    · simp
    · exact hi.outFits
  outListed := fun i h => by
    rw [State.raiseBlockError_outLen] at h
    split at h
    · simp at h
    · exact hi.outListed i h
  job := by simp

theorem Inv.abandoned {s : State} (hi : Inv s) : Inv s.clearStatus.abandonJob where
  imgCanonical := hi.imgCanonical
  outCanonical := Memory.nil_wf
  imgRegion := hi.imgRegion
  imgWhole := hi.imgWhole
  outRegion := by simp
  errCode := by simp
  idleClear := by simp
  busyLength := by simp
  outFits := by simp
  outListed := by simp
  job := by simp

theorem outCap_lt (p : Config.Params) : p.outCap < 2 ^ 32 := Nat.lt_of_le_of_lt (outCap_le p) (by decide)

theorem bytesPerRow_lt (rowPad : Bool) (W : Half) : bytesPerRow rowPad W.toNat < 2 ^ 16 := by
  have := W.isLt
  unfold bytesPerRow
  split
  · rw [ceil8_eq]; omega
  · omega

/-- The job of an accepted PROCESS meets its invariant (R73). -/
theorem jobInv_acceptJob {s : State} (hW : s.imgW.toNat ≠ 0) (hH : s.imgH.toNat ≠ 0)
    (hfits : s.imgW.toNat * s.imgH.toNat ≤ s.params.imgCap)
    (hout : outputLength s.params.rowPad s.imgW.toNat s.imgH.toNat ≤ s.params.outCap) :
    JobInv (s.acceptJob s.imgW.toNat s.imgH.toNat (outputLength s.params.rowPad s.imgW.toNat s.imgH.toNat)) := by
  have hsized := ErrPlane.sized_zero s.imgW.toNat s.imgH.toNat
  have hlen := Nat.mod_eq_of_lt (Nat.lt_of_le_of_lt hout (outCap_lt s.params))
  have hrow := Nat.mod_eq_of_lt (bytesPerRow_lt s.params.rowPad s.imgW)
  exact {
    width := by simp; omega
    height := by simp; omega
    fitsImg := by simpa using hfits
    rowBytes := by simpa using hrow
    length := by simpa using hlen
    fitsOut := (Nat.mod_le _ _).trans hout
    cursor := .inl (by simp; omega)
    rows := by simpa using hsized.1
    columns := by simpa using hsized.2
    errSmall := fun y _ x _ => by
      have := errReach_nonneg (s.acceptJob s.imgW.toNat s.imgH.toNat
        (outputLength s.params.rowPad s.imgW.toNat s.imgH.toNat)) y x
      rw [State.acceptJob_errPlane, ErrPlane.get_zero]
      simp
      omega
    packed := by simp [packerCount]
    packerClear := by simp
    written := by
      have hh : 0#16 ≠ s.imgH := fun h => hH (by simp [← h])
      simp [bytesWritten, hh] }

theorem Inv.acceptJob {s : State} (hi : Inv s) {W H L : Nat} (hj : JobInv (s.acceptJob W H L)) :
    Inv (s.acceptJob W H L) where
  imgCanonical := hi.imgCanonical
  outCanonical := hi.outCanonical
  imgRegion := hi.imgRegion
  imgWhole := hi.imgWhole
  outRegion := hi.outRegion
  errCode := by simp
  idleClear := by simp
  busyLength := by simp
  outFits := by simp
  outListed := by simp
  job := fun _ => hj

theorem Inv.issueEffect {s t : State} {w : Word} (hi : Inv s) (h : IssueEffect s w t) : Inv t := by
  cases h with
  | nop => exact hi
  | rejected hb => exact hi.setRej hb
  | refused _ _ c hc => exact hi.raiseBlockError (by rintro rfl; cases hc)
  | illegal => exact hi.raiseBlockError (by decide)
  | accepted _ _ hW hH hfits hout => exact hi.acceptJob (jobInv_acceptJob hW hH hfits hout)
  | abandoned => exact hi.abandoned

/-- Writing an IMG word keeps IMG a set of whole words inside its region (20_memory.md R39). -/
theorem Inv.writeImg {s : State} (hi : Inv s) {a : Nat} (v : Word) (ha : a % 4 = 0)
    (hr : regionOf s.params a = .img) : Inv (s.writeImg a v) := by
  unfold State.writeImg
  split
  · exact hi.setRej ‹_›
  · rename_i hb
    exact {
      imgCanonical := Memory.writeWord_wf hi.imgCanonical a v
      outCanonical := hi.outCanonical
      imgRegion := fun c hc => by
        rcases Memory.mem_writeWord hc with h | h
        · rw [regionOf_img] at hr ⊢
          unfold Config.imgBase at *
          dsimp only
          omega
        · exact hi.imgRegion c h
      imgWhole := fun c hc => by
        by_cases h : c.1 / 4 * 4 = a
        · simp [h]
        · rw [Memory.readWord_writeWord_other _ _ _ _ (by omega)]
          exact hi.imgWhole c ((Memory.mem_writeWord hc).resolve_left (by omega))
      outRegion := hi.outRegion
      errCode := hi.errCode
      idleClear := hi.idleClear
      busyLength := hi.busyLength
      outFits := hi.outFits
      outListed := hi.outListed
      job := fun h => absurd (State.busy_iff.2 h) hb }

theorem Inv.complete {s : State} (hi : Inv s) (hb : s.busy) (hy : s.cy = s.jh) : Inv s.complete := by
  have hbusy := State.busy_iff.1 hb
  have hj := hi.job hbusy
  exact {
    imgCanonical := hi.imgCanonical
    outCanonical := hi.outCanonical
    imgRegion := hi.imgRegion
    imgWhole := hi.imgWhole
    outRegion := hi.outRegion
    errCode := by simpa using hi.errCode.2 (by simp [hbusy])
    idleClear := by simp
    busyLength := by simp
    outFits := hj.fitsOut
    outListed := fun i h => hj.written i (by rwa [hj.bytesWritten_end hy])
    job := by simp }

/-- A job step keeps OUT canonical and inside its region: its byte stands below JLEN. -/
theorem Inv.ditherPack {s : State} (hi : Inv s) (hb : s.busy) (hy : s.cy.toNat < s.jh.toNat) (p : Word) :
    Inv (s.ditherPack s.cx.toNat s.cy.toNat p) := by
  have hbusy := State.busy_iff.1 hb
  have hj := hi.job hbusy
  have hlen := hi.busyLength hbusy
  obtain ⟨b, hpack⟩ := ditherPack_packer p hj.packed hy
  exact {
    imgCanonical := by simpa using hi.imgCanonical
    outCanonical := by
      rcases hpack with ⟨_, _, _, hout⟩ | ⟨_, _, _, hout⟩ <;> rw [hout]
      · exact Memory.write_wf hi.outCanonical _ _
      · exact hi.outCanonical
    imgRegion := by simpa using hi.imgRegion
    imgWhole := by simpa using hi.imgWhole
    outRegion := fun c hc => by
      rw [State.ditherPack_params]
      rcases hpack with ⟨_, _, _, hout⟩ | ⟨_, _, _, hout⟩ <;> rw [hout] at hc
      · rcases Memory.mem_write hc with rfl | h
        · have := hj.bytesWritten_lt hy
          have := hj.fitsOut
          rw [regionOf_out]
          dsimp only [outAddr]
          omega
        · exact hi.outRegion c h
      · exact hi.outRegion c hc
    errCode := by simpa using hi.errCode
    idleClear := by simp [hbusy]
    busyLength := by simp [hlen]
    outFits := by simp [hlen]
    outListed := by simp [hlen]
    job := fun _ => hj.ditherPack hy p }

theorem Inv.jobStep {s : State} (hi : Inv s) (hb : s.busy) (hy : s.cy.toNat < s.jh.toNat) : Inv s.jobStep := by
  unfold State.jobStep
  rcases s.readImg_cases (s.cy.toNat * s.jw.toNat + s.cx.toNat) with ⟨p, _, h⟩ | ⟨_, h⟩ <;> rw [h]
  · exact hi.ditherPack hb hy p
  · exact (hi.hostFields hi.idle_rej s.imgW s.imgH (s.draws + 1) s.prog s.turns s.vars).ditherPack hb hy _

/-- Every step keeps the invariant. -/
theorem Inv.stepChange {s t : State} (hi : Inv s) (h : StepChange s t) : Inv t := by
  cases h with
  | quiet ts q d vs => exact hi.hostFields hi.idle_rej s.imgW s.imgH d q ts vs
  | command _ w rest ts _ _ hw => exact ((hi.setTurns ts).setProg rest).issueEffect hw
  | width _ v rest ts => exact ((hi.setTurns ts).setProg rest).writeImgW v
  | height _ v rest ts => exact ((hi.setTurns ts).setProg rest).writeImgH v
  | image _ a v rest ts _ ha hr => exact ((hi.setTurns ts).setProg rest).writeImg v ha hr
  | pixel _ hb hy ts => exact (hi.setTurns ts).jobStep hb hy
  | finish _ hb hy ts => exact (hi.setTurns ts).complete hb hy

/-- Settles O52: each effect a step can have keeps the invariant. -/
theorem stepKeepsInv : Obligations.StepKeepsInv :=
  fun _ _ hi h => hi.stepChange (step_change h)

end Sys2Proof.Safety

namespace Sys2Proof.Machine
open Sys2Proof.Safety

/-! ## Registers -/

/-- A word-aligned read of a register returns its value and has no effect (R38, R50). -/
theorem busRead_reg (s : State) {a : Addr} (ha : a.toNat < 0x40) (h4 : a.toNat % 4 = 0) :
    busRead s 4 a = .ok (regRead s a.toNat, s) := by
  simp [busRead, readDefined, readValue, regionOf_reg.2 ha, alignedWord, h4]

/-- A word-aligned write to a register is that register's write (R38). -/
theorem busWrite_reg (s : State) {a : Addr} (ha : a.toNat < 0x40) (h4 : a.toNat % 4 = 0) (v : Word) :
    busWrite s 4 a v = regWrite s a.toNat v := by
  simp [busWrite, writeDefined, writeEffect, regionOf_reg.2 ha, alignedWord, h4]

/-- A field above the low part of two parts joined is a field of the high part. -/
theorem extractLsb'_append_skip {v w start len : Nat} (high : BitVec v) (low : BitVec w) :
    (high ++ low).extractLsb' (w + start) len = high.extractLsb' start len := by
  rw [BitVec.extractLsb'_append_eq_of_le (Nat.le_add_right w start), Nat.add_sub_cancel_left]

/-- R19: the fields of STATUS. -/
theorem statusWord_fields (st : JobState) (rej : Bool) (err : ErrCode) :
    (statusWord st rej err).extractLsb' 0 2 = st.code
      ∧ (statusWord st rej err).extractLsb' 2 1 = BitVec.ofBool rej
      ∧ (statusWord st rej err).extractLsb' 3 5 = 0
      ∧ (statusWord st rej err).extractLsb' 8 8 = err.code
      ∧ (statusWord st rej err).extractLsb' 16 16 = 0 := by
  have aboveState {start len : Nat} : (statusWord st rej err).extractLsb' (2 + start) len
      = ((0 : BitVec 16) ++ err.code ++ (0 : BitVec 5) ++ BitVec.ofBool rej).extractLsb' start len :=
    extractLsb'_append_skip _ st.code
  have aboveRej {start len : Nat} : (statusWord st rej err).extractLsb' (3 + start) len
      = ((0 : BitVec 16) ++ err.code ++ (0 : BitVec 5)).extractLsb' start len := by
    rw [show 3 + start = 2 + (1 + start) by omega, aboveState, extractLsb'_append_skip]
  have aboveZero {start len : Nat} : (statusWord st rej err).extractLsb' (8 + start) len
      = ((0 : BitVec 16) ++ err.code).extractLsb' start len := by
    rw [show 8 + start = 3 + (5 + start) by omega, aboveRej, extractLsb'_append_skip]
  exact ⟨BitVec.extractLsb'_append_eq_right,
    (aboveState (start := 0)).trans BitVec.extractLsb'_append_eq_right,
    (aboveRej (start := 0)).trans BitVec.extractLsb'_append_eq_right,
    (aboveZero (start := 0)).trans BitVec.extractLsb'_append_eq_right,
    (aboveZero (start := 8)).trans BitVec.extractLsb'_append_eq_left⟩

/-- At a reserved offset a read returns 0 and a write is ignored (R28). -/
theorem reg_reserved (s : State) {off : Nat} (h : 0x1C ≤ off) :
    regRead s off = 0 ∧ ∀ v, regWrite s off v = .next s := by
  constructor
  · unfold regRead
    split <;> simp_all
  · intro v
    unfold regWrite
    split <;> simp_all

/-- At power-on STATUS is 0 (R136). -/
theorem status_powerOn (p : Config.Params) : (State.powerOn p).status = 0 :=
  show statusWord .idle false .none = 0 by decide

/-- Settles O17: the fields of STATUS are read out of its word one above another, and the register's write arm ignores. -/
theorem statusRegister : Obligations.StatusRegister := by
  have read (s : State) : busRead s 4 0x000004 = .ok (s.status, s) := busRead_reg s (by decide) (by decide)
  refine ⟨fun s => ⟨s.status, read s, ?_⟩, fun p => by rw [read, status_powerOn],
    fun s v => busWrite_reg s (by decide) (by decide) v⟩
  obtain ⟨hstate, hrej, hzero, herr, hhigh⟩ := statusWord_fields s.jobState s.rej s.err
  refine ⟨hstate.trans ?_, hrej.trans ?_, hzero, herr.trans ?_, hhigh⟩
  · cases s.jobState <;> rfl
  · cases s.rej <;> rfl
  · cases s.err <;> rfl

theorem State.rejIfBusy_of_busy {s : State} (hb : s.busy) : s.rejIfBusy = true := by
  simp [State.rejIfBusy, hb]

theorem State.rejIfBusy_of_not_busy {s : State} (hb : ¬ s.busy) : s.rejIfBusy = s.rej := by
  simp [State.rejIfBusy, hb]

/-- R23: a 16-bit register as the host reads it, bits [31:16] zero. -/
theorem zero_append_half (v : Half) : v.setWidth 32 = (0 : BitVec 16) ++ v :=
  BitVec.setWidth_eq_append (by decide)

/-- Settles O18: both are register accesses; REJ is `rejIfBusy`. -/
theorem dimensionRegisters : Obligations.DimensionRegisters := by
  have width (s : State) (v : Word) : busWrite s 4 0x08 v = .next (s.writeImgW v) :=
    busWrite_reg s (by decide) (by decide) v
  have height (s : State) (v : Word) : busWrite s 4 0x0C v = .next (s.writeImgH v) :=
    busWrite_reg s (by decide) (by decide) v
  refine ⟨fun s v hb => ?_, fun s v hb => ?_, fun s v hb => ?_, fun s v hb => ?_, fun s => ⟨?_, ?_⟩,
    fun p => ⟨rfl, rfl, rfl⟩⟩
  · rw [width, State.writeImgW, State.rejIfBusy_of_not_busy hb, BitVec.setWidth_eq_extractLsb' (by decide)]
  · rw [width, State.writeImgW, State.rejIfBusy_of_busy hb, BitVec.setWidth_eq_extractLsb' (by decide)]
  · rw [height, State.writeImgH, State.rejIfBusy_of_not_busy hb, BitVec.setWidth_eq_extractLsb' (by decide)]
  · rw [height, State.writeImgH, State.rejIfBusy_of_busy hb, BitVec.setWidth_eq_extractLsb' (by decide)]
  · exact (busRead_reg s (a := 0x08) (by decide) (by decide)).trans (by rw [← zero_append_half]; rfl)
  · exact (busRead_reg s (a := 0x0C) (by decide) (by decide)).trans (by rw [← zero_append_half]; rfl)

/-- Settles O21: both accesses fall into the last arm of the register. -/
theorem reservedOffsets : Obligations.ReservedOffsets := by
  intro s a hlo hhi h4
  obtain ⟨hread, hwrite⟩ := reg_reserved s hlo
  refine ⟨by rw [busRead_reg s (by omega) h4, hread], fun v => ?_⟩
  rw [busWrite_reg s (by omega) h4, hwrite]

/-- Settles O22: a CTRL write is `issueCommand`. -/
theorem ctrlRegister : Obligations.CtrlRegister :=
  ⟨fun s => ⟨busRead_reg s (by decide) (by decide),
    fun w _ hw => (busWrite_ctrl s w).trans (issueCommand_of_decode s hw)⟩,
    fun _ hw => ⟨.rsvdNonZero, if_pos hw⟩⟩

/-! ## What a step changes, field by field -/

@[simp] theorem State.writeImg_rej (s : State) (a : Nat) (v : Word) : (s.writeImg a v).rej = s.rejIfBusy := by
  unfold State.writeImg State.rejIfBusy
  split <;> simp [*]

/-- No command changes the construction parameters (R17). -/
theorem IssueEffect.params {s t : State} {w : Word} (h : IssueEffect s w t) : t.params = s.params := by
  cases h <;> rfl

/-- No step changes the construction parameters (R17). -/
theorem StepChange.params {s t : State} (h : StepChange s t) : t.params = s.params := by
  cases h with
  | command _ _ _ _ _ _ hw => exact hw.params
  | quiet | width | height | image | pixel | finish => simp

/-- Settles O19: register accesses, and no effect of a step writes the parameters. -/
theorem panelRegisters : Obligations.PanelRegisters :=
  ⟨fun s => ⟨busRead_reg s (by decide) (by decide), busRead_reg s (by decide) (by decide)⟩,
    fun s v => ⟨busWrite_reg s (by decide) (by decide) v, busWrite_reg s (by decide) (by decide) v⟩,
    fun _ => rfl, fun _ _ h => (step_change h).params⟩

/-- A command changes OUT_LEN only to 0, and only as PROCESS while not BUSY or as RESET (R27). -/
theorem IssueEffect.outLen {s t : State} {w : Word} (h : IssueEffect s w t) :
    t.outLen = s.outLen
      ∨ t.outLen = 0 ∧ ((decodeWord w = .ok .process ∧ ¬ s.busy) ∨ decodeWord w = .ok .reset) := by
  cases h with
  | nop | rejected | illegal => exact .inl rfl
  | refused hb hw c hc => exact .inr ⟨if_pos hc, .inl ⟨hw, hb⟩⟩
  | accepted hb hw => exact .inr ⟨rfl, .inl ⟨hw, hb⟩⟩
  | abandoned hw => exact .inr ⟨rfl, .inr hw⟩

/-- PROCESS while not BUSY leaves OUT_LEN 0, accepted or refused (R73). -/
theorem exec_process_outLen {s t : State} (hb : ¬ s.busy) (h : exec .process s = .next t) : t.outLen = 0 := by
  have hw : decodeWord (encode .process) = .ok .process := by decide
  obtain ⟨u, hu, he⟩ := issueCommand_issueEffect s (encode .process)
  rw [issueCommand_of_decode s hw, h] at hu
  cases hu
  cases he with
  | nop hw' | abandoned hw' => simp [hw] at hw'
  | illegal _ hw' => simp [hw] at hw'
  | rejected hb' => exact absurd hb' hb
  | refused _ _ c hc => exact if_pos hc
  | accepted => rfl

/-- Settles O20: of the effects of a step only a command and the completion step write OUT_LEN. -/
theorem outLenRegister : Obligations.OutLenRegister := by
  refine ⟨fun s => busRead_reg s (by decide) (by decide), fun s v => busWrite_reg s (by decide) (by decide) v,
    fun _ => rfl, fun s t => exec_process_outLen, ?_, ?_, ?_⟩
  · rintro s _ ⟨⟩
    rfl
  · intro s t hb hy h
    obtain ⟨u, hu, he⟩ := engineMove_effect s
    cases hu.symm.trans h
    cases he with
    | idle hidle =>
      rw [hy] at hidle
      exact absurd hidle (by simp [hb])
    | pixel _ hlt => rw [hy] at hlt; omega
    | finish => rfl
  · intro s t h hne
    cases step_change h with
    | quiet | width | height | image | pixel => simp at hne
    | command hm w _ _ hp _ hw =>
      exact .inl ⟨w, nextCommand_of_ctrl hm hp, (hw.outLen.resolve_left hne).2⟩
    | finish hm hb hy => exact .inr ⟨hm, hb, hy⟩

/-- Settles O23: of the effects of a step only a command and the completion step write STATE. -/
theorem stateWriters : Obligations.StateWriters := by
  intro s t h hne
  cases step_change h with
  | quiet | width | height | image | pixel => simp at hne
  | finish hm hb hy => exact .inr (.inr (.inl ⟨rfl, hb, hm, hy⟩))
  | command hm w _ _ hp _ hw =>
    have hnext := nextCommand_of_ctrl hm hp
    cases hw with
    | nop | rejected => simp at hne
    | refused hb hw => exact .inr (.inr (.inr ⟨rfl, hb, w, hnext, .inl hw⟩))
    | illegal hb hw => exact .inr (.inr (.inr ⟨rfl, hb, w, hnext, .inr hw⟩))
    | accepted hb hw => exact .inl ⟨rfl, hb, w, hnext, hw⟩
    | abandoned hw => exact .inr (.inl ⟨rfl, w, hnext, hw⟩)

/-! ## REJ -/

/-- R21: the host writes that set REJ while BUSY. -/
def SetsRejWhileBusy (s : State) (a : Addr) (v : Word) : Prop :=
  (a = 0 ∧ (decodeWord v = .ok .process ∨ ∃ r, decodeWord v = .error r)) ∨ a = 0x000008 ∨ a = 0x00000C
    ∨ regionOf s.params a.toNat = .img

theorem setsRejWhileBusy_ctrl {s : State} {v : Word} (h : SetsRejWhileBusy s 0 v) :
    decodeWord v = .ok .process ∨ ∃ r, decodeWord v = .error r := by
  simpa [SetsRejWhileBusy, regionOf_img, Config.imgBase] using h

theorem BusWriteEffect.setsRej {s t : State} {a : Addr} {v : Word} (h : BusWriteEffect s a v t) (hb : s.busy)
    (hr : SetsRejWhileBusy s a v) : t.rej = true := by
  cases h with
  | width | height | image => simp [State.rejIfBusy_of_busy hb]
  | ignored h0 hw hh himg =>
    rcases hr with ⟨ha, _⟩ | ha | ha | ha
    exacts [absurd ha h0, absurd ha hw, absurd ha hh, absurd ha himg]
  | command ha _ hc =>
    subst ha
    have hv := setsRejWhileBusy_ctrl hr
    cases hc with
    | rejected => rfl
    | nop hw | abandoned hw => simp [hw] at hv
    | refused hn | illegal hn | accepted hn => exact absurd hb hn

/-- A step that sets REJ is one of those host writes, while BUSY, and changes nothing else but a dimension (R21, R23). -/
theorem StepChange.rej_set {s t : State} (h : StepChange s t) (hs : s.rej = false) (ht : t.rej = true) :
    s.busy ∧ mover s = .host ∧ (∃ n a v rest, s.prog = .wr n a v :: rest ∧ SetsRejWhileBusy s a v)
      ∧ t = { s with rej := true, imgW := t.imgW, imgH := t.imgH, prog := t.prog, turns := t.turns } := by
  have busy_of_rejIfBusy {u : State} (hu : u.rej = false) (h : u.rejIfBusy = true) : u.busy = true := by
    simpa [State.rejIfBusy, hu] using h
  cases h with
  | quiet | pixel | finish => simp [hs] at ht
  | width hm v rest ts hp =>
    have hb := busy_of_rejIfBusy (u := (s.setTurns ts).setProg rest) hs ht
    refine ⟨hb, hm, ⟨4, _, v, rest, hp, .inr (.inl rfl)⟩, ?_⟩
    rw [State.writeImgW, State.rejIfBusy_of_busy hb]
    rfl
  | height hm v rest ts hp =>
    have hb := busy_of_rejIfBusy (u := (s.setTurns ts).setProg rest) hs ht
    refine ⟨hb, hm, ⟨4, _, v, rest, hp, .inr (.inr (.inl rfl))⟩, ?_⟩
    rw [State.writeImgH, State.rejIfBusy_of_busy hb]
    rfl
  | image hm a v rest ts hp _ hr =>
    rw [State.writeImg_rej] at ht
    have hb := busy_of_rejIfBusy (u := (s.setTurns ts).setProg rest) hs ht
    refine ⟨hb, hm, ⟨4, a, v, rest, hp, .inr (.inr (.inr hr))⟩, ?_⟩
    rw [State.writeImg, if_pos hb]
    rfl
  | command hm w rest ts hp _ hw =>
    cases hw with
    | rejected hb hw => exact ⟨hb, hm, ⟨4, 0, w, rest, hp, .inl ⟨rfl, hw⟩⟩, rfl⟩
    | nop | refused | illegal => simp [hs] at ht
    | accepted | abandoned => simp at ht

/-- Settles O24: forwards by the effect of the host's write, backwards by the effects of a step. -/
theorem rejRule : Obligations.RejRule := by
  refine ⟨fun s t n a v rest h hm hb hp hr => ?_, fun s t h => (step_change h).rej_set, fun s t h hs ht => ?_,
    fun _ => rfl⟩
  · rw [step_write hm hp] at h
    exact (busWrite_busWriteEffect h).2.setsRej hb hr
  · cases step_change h with
    | quiet | pixel | finish => simp [hs] at ht
    | width | height | image => simp [State.rejIfBusy, hs] at ht
    | command hm w _ _ hp _ hw =>
      refine ⟨w, nextCommand_of_ctrl hm hp, ?_⟩
      cases hw with
      | nop | rejected | refused | illegal => simp [hs] at ht
      | accepted _ hw => exact .inl ⟨hw, rfl⟩
      | abandoned hw => exact .inr hw

/-- Settles O25: each effect that writes STATE or ERR writes both, or leaves ERROR out of it. -/
theorem errCodeOnlyInError : Obligations.ErrCodeOnlyInError := by
  intro s t hs h
  cases step_change h with
  | quiet | width | height | image | pixel => simpa using hs
  | finish _ hb => simpa using hs.2 (by simp [State.busy_iff.1 hb])
  | command _ _ _ _ _ _ hw =>
    cases hw with
    | nop | rejected => exact hs
    | refused _ _ c hc =>
      have : c ≠ .none := by rintro rfl; cases hc
      simpa using this
    | illegal | accepted | abandoned => simp

/-- Settles O30: only an accepted PROCESS and RESET write the latch, and neither goes from BUSY to BUSY. -/
theorem latchFixedWhileBusy : Obligations.LatchFixedWhileBusy := by
  intro s t hb h ht
  cases step_change h with
  | quiet | width | height | image | pixel | finish => simp
  | command _ _ _ _ _ _ hw =>
    cases hw with
    | nop | rejected => simp
    | refused hn | illegal hn | accepted hn => exact absurd hb hn
    | abandoned => simp at ht

/-! ## Two row buffers -/

/-- R91: the row of pixel (x, y) after Diffuse. -/
def rightShare (W x : Nat) (e : Int) (row : List Int) : List Int :=
  if x + 1 < W then addAt row (x + 1) (share Config.kRight e) else row

/-- R91: the row below pixel (x, y) after Diffuse. -/
def belowShares (W H x y : Nat) (e : Int) (row : List Int) : List Int :=
  let n1 := if y + 1 < H ∧ 1 ≤ x then addAt row (x - 1) (share Config.kBelowLeft e) else row
  let n2 := if y + 1 < H then addAt n1 x (share Config.kBelow e) else n1
  if y + 1 < H ∧ x + 1 < W then addAt n2 (x + 1) (share Config.kBelowRight e) else n2

/-- A guarded update of the full array changes its own row alone. -/
theorem ErrArray.row_addIf_other {G : Prop} [Decidable G] (E : ErrArray) {y y' : Nat} (x : Nat) (d : Int)
    (h : y' ≠ y) : (if G then ErrArray.add E y x d else E).getD y' [] = E.getD y' [] := by
  split
  · simp only [ErrArray.add, List.getD_eq_getElem?_getD, List.getElem?_set_ne h.symm]
  · rfl

theorem ErrArray.row_addIf_same {G : Prop} [Decidable G] {E : ErrArray} {y : Nat} (x : Nat) (d : Int)
    (hy : y < E.length) :
    (if G then ErrArray.add E y x d else E).getD y [] = if G then addAt (E.getD y []) x d else E.getD y [] := by
  split
  · simp [ErrArray.add, addAt, ErrArray.get, List.getElem?_set_self hy]
  · rfl

theorem ErrArray.length_addIf {G : Prop} [Decidable G] (E : ErrArray) (y x : Nat) (d : Int) :
    (if G then ErrArray.add E y x d else E).length = E.length := by
  split <;> simp [ErrArray.add]

theorem ErrArray.length_diffuse (E : ErrArray) (W H x y : Nat) (e : Int) :
    (ErrArray.diffuse E W H x y e).length = E.length := by
  simp only [ErrArray.diffuse, ErrArray.length_addIf]

theorem ErrArray.row_diffuse_current {E : ErrArray} {y : Nat} (hy : y < E.length) (W H x : Nat) (e : Int) :
    (ErrArray.diffuse E W H x y e).getD y [] = rightShare W x e (E.getD y []) := by
  have hne : y ≠ y + 1 := by omega
  simp only [ErrArray.diffuse]
  rw [ErrArray.row_addIf_other _ _ _ hne, ErrArray.row_addIf_other _ _ _ hne, ErrArray.row_addIf_other _ _ _ hne,
    ErrArray.row_addIf_same _ _ hy]
  rfl

theorem ErrArray.row_diffuse_next {E : ErrArray} {y : Nat} (hy : y + 1 < E.length) (W H x : Nat) (e : Int) :
    (ErrArray.diffuse E W H x y e).getD (y + 1) [] = belowShares W H x y e (E.getD (y + 1) []) := by
  have hne : y + 1 ≠ y := by omega
  simp only [ErrArray.diffuse]
  rw [ErrArray.row_addIf_same _ _ (by simpa only [ErrArray.length_addIf] using hy),
    ErrArray.row_addIf_same _ _ (by simpa only [ErrArray.length_addIf] using hy),
    ErrArray.row_addIf_same _ _ (by simpa only [ErrArray.length_addIf] using hy), ErrArray.row_addIf_other _ _ _ hne]
  rfl

theorem ErrArray.row_diffuse_later (E : ErrArray) (W H x : Nat) (e : Int) {y y' : Nat} (hy : y + 1 < y') :
    (ErrArray.diffuse E W H x y e).getD y' [] = E.getD y' [] := by
  have hne : y' ≠ y + 1 := by omega
  simp only [ErrArray.diffuse]
  rw [ErrArray.row_addIf_other _ _ _ hne, ErrArray.row_addIf_other _ _ _ hne, ErrArray.row_addIf_other _ _ _ hne,
    ErrArray.row_addIf_other _ _ _ (by omega)]

/-- R31: with the scan in row y, the two buffers are rows y and y + 1 of the full array, and no row after them
has received an error yet. -/
structure RowsMatch (W H y : Nat) (d : TwoRowState) (f : DitherState) : Prop where
  pixels : d.pixels = f.pixels
  height : f.errors.length = H
  current : y < H → f.errors.getD y [] = d.current
  next : y + 1 < H → f.errors.getD (y + 1) [] = d.next
  later : ∀ y', y + 1 < y' → y' < H → f.errors.getD y' [] = List.replicate W 0

theorem rowsMatch_start (G : Nat → Nat → Nat) (W H : Nat) :
    RowsMatch W H 0 (twoRowScan G W H 0) (ditherScan G W H 0) := by
  have row (y : Nat) (hy : y < H) : (ditherScan G W H 0).errors.getD y [] = List.replicate W 0 := by
    simp [ditherScan, hy]
  exact ⟨rfl, by simp [ditherScan], row 0, row 1, fun y' _ => row y'⟩

/-- Diffusing one error keeps the buffers in step with the full array. -/
theorem RowsMatch.diffuse {W H y : Nat} {d : TwoRowState} {f : DitherState} (h : RowsMatch W H y d f) (hy : y < H)
    (x : Nat) (e : Int) (white : Bool) :
    RowsMatch W H y
      { current := rightShare W x e d.current, next := belowShares W H x y e d.next, pixels := d.pixels ++ [white] }
      { errors := ErrArray.diffuse f.errors W H x y e, pixels := f.pixels ++ [white] } where
  pixels := by rw [h.pixels]
  height := (ErrArray.length_diffuse ..).trans h.height
  current _ := by rw [ErrArray.row_diffuse_current (by rwa [h.height]), h.current hy]
  next hn := by rw [ErrArray.row_diffuse_next (by rwa [h.height]), h.next hn]
  later y' hlt hy' := by rw [ErrArray.row_diffuse_later _ _ _ _ _ hlt, h.later y' hlt hy']

/-- At the end of a row the next row becomes the current one and a zeroed row follows (R31). -/
theorem RowsMatch.nextRow {W H y : Nat} {d : TwoRowState} {f : DitherState} (h : RowsMatch W H y d f) :
    RowsMatch W H (y + 1) { current := d.next, next := List.replicate W 0, pixels := d.pixels } f where
  pixels := h.pixels
  height := h.height
  current := h.next
  next hn := h.later (y + 2) (by omega) hn
  later y' hlt := h.later y' (by omega)

/-- One pixel keeps the buffers in step with the full array. -/
theorem RowsMatch.pixel {W H x y : Nat} {d : TwoRowState} {f : DitherState} (h : RowsMatch W H y d f)
    (G : Nat → Nat → Nat) (hy : y < H) :
    RowsMatch W H (if x + 1 < W then y else y + 1) (twoRowPixel G W H x y d) (ditherPixel G W H x y f) := by
  have hcurrent : ErrArray.get f.errors y x = d.current.getD x 0 := by rw [ErrArray.get, h.current hy]
  have hq := h.diffuse hy x (quantize ((G y x : Int) + d.current.getD x 0)).2
    (quantize ((G y x : Int) + d.current.getD x 0)).1
  rw [ditherPixel, hcurrent]
  unfold twoRowPixel
  by_cases hx : x + 1 < W
  · simpa [rightShare, belowShares, hx] using hq
  · simpa [rightShare, belowShares, hx] using hq.nextRow

/-- The row of the next pixel in row-major order (R85). -/
theorem succ_div_eq {W n : Nat} (hW : 0 < W) : (n + 1) / W = if n % W + 1 < W then n / W else n / W + 1 := by
  have hx := Nat.mod_lt n hW
  have hn : n + 1 = W * (n / W) + (n % W + 1) := by rw [← Nat.add_assoc, Nat.div_add_mod]
  split
  · rename_i h
    rw [hn, Nat.mul_add_div hW, Nat.div_eq_of_lt h, Nat.add_zero]
  · rw [hn, Nat.mul_add_div hW, show n % W + 1 = W by omega, Nat.div_self hW]

/-- After any number of pixels the buffers are in step with the full array. -/
theorem rowsMatch_scan (G : Nat → Nat → Nat) (W H : Nat) {n : Nat} (hn : n ≤ W * H) :
    RowsMatch W H (n / W) (twoRowScan G W H n) (ditherScan G W H n) := by
  induction n with
  | zero => simpa using rowsMatch_start G W H
  | succ n ih =>
    have hW : 0 < W := Nat.pos_of_ne_zero (by rintro rfl; omega)
    have hy : n / W < H := Nat.div_lt_of_lt_mul hn
    rw [succ_div_eq hW]
    exact (ih (by omega)).pixel G hy

/-- Settles O44: the buffers stay in step with the full array. -/
theorem twoRowBuffersSuffice : Obligations.TwoRowBuffersSuffice :=
  fun G W H _ hn => (rowsMatch_scan G W H hn).pixels

end Sys2Proof.Machine

/-! SUPPORT. Proofs about memory, host accesses and interleaving (spec 20_memory.md). -/

namespace Sys2Proof.Machine
open Sys2Proof.Safety

/-! ## Whose move a step is -/

theorem mover_of_turns {s : State} {g : Agent} {ts : List Agent} (h : s.turns = g :: ts) : mover s = g := by
  rw [mover, h]

theorem mover_of_busy {s : State} (h : s.turns = []) (hb : s.busy) : mover s = .engine := by
  rw [mover, h]
  exact if_pos hb

theorem mover_of_not_busy {s : State} (h : s.turns = []) (hb : ¬ s.busy) : mover s = .host := by
  rw [mover, h]
  exact if_neg hb

/-- Where no turn is laid down, taking one off changes nothing. -/
theorem State.setTurns_tail {s : State} (h : s.turns = []) : s.setTurns s.turns.tail = s := by
  rw [h, List.tail_nil, ← h]
  rfl

/-- A laid-down turn is that agent's move (R51). -/
theorem step_of_turns {s : State} {g : Agent} {ts : List Agent} (h : s.turns = g :: ts) :
    step s = move g (s.setTurns ts) := by
  rw [step_eq, mover_of_turns h, h, List.tail_cons]

/-- Where no turn is laid down, the step uses up none (log 2). -/
theorem step_of_no_turns {s : State} (h : s.turns = []) : step s = move (mover s) s := by
  rw [step_eq, State.setTurns_tail h]

/-- The engine has no move outside a job (log 15). -/
theorem engineMove_of_not_busy {s : State} (hb : ¬ s.busy) : engineMove s = .next s := if_neg hb

theorem hostMove_nil {s : State} (h : s.prog = []) : hostMove s = .next s := by
  rw [hostMove, h]

/-- The host's move is the first access of its program, which it takes off (R51). -/
theorem hostMove_cons {s : State} {op : BusOp} {rest : List BusOp} (h : s.prog = op :: rest) :
    hostMove s = performOp (s.setProg rest) op := by
  rw [hostMove, h]

/-- Settles O6: a step is the move of its mover, and outside their work both agents stand still. -/
theorem everyInterleavingIsAdmitted : Obligations.EveryInterleavingIsAdmitted := by
  refine ⟨fun s ts h => step_of_turns h, fun s ts h => step_of_turns h, fun s h hb => ?_, fun s h hb => ?_,
    fun s => engineMove_of_not_busy, fun s => hostMove_nil⟩
  · rw [step_of_no_turns h, mover_of_busy h hb]
    rfl
  · rw [step_of_no_turns h, mover_of_not_busy h hb]
    rfl

/-- Where the host moves and its next access writes a command's word to CTRL, the step is that command (R51, R70). -/
theorem step_command {s : State} {i : Instr} {w : Word} {rest : List BusOp} (hm : mover s = .host)
    (hw : decodeWord w = .ok i) (hp : s.prog = .wr 4 0 w :: rest) :
    step s = exec i ((s.setTurns s.turns.tail).setProg rest) := by
  rw [step_write hm hp, busWrite_ctrl, issueCommand_of_decode _ hw]

/-- Settles O5: in each clause the host moves and its access is the CTRL write. -/
theorem stepRunsDecodedCommand : Obligations.StepRunsDecodedCommand := by
  refine ⟨fun s i w rest ts hw hp ht => ?_, fun s i w rest hw hp ht hb => ?_, fun s i w hw => ?_⟩
  · rw [step_command (mover_of_turns ht) hw hp, ht]
    rfl
  · rw [step_command (mover_of_not_busy ht hb) hw hp, State.setTurns_tail ht]
    rfl
  · refine step_command (s := s.withFetchWord 32 w.toNat) (rest := s.prog) rfl hw ?_
    rw [State.withFetchWord, tableWord_toNat]

/-- A defined host read binds its value (R67). -/
theorem hostRead_of_ok {s t : State} {n : Nat} {a : Addr} {v : Word} (dst : Nat) (h : busRead s n a = .ok (v, t)) :
    hostRead s n a dst = .next (t.bind dst v) := by
  rw [hostRead, h]

theorem hostWait_of_not_busy {s : State} (hb : ¬ s.busy) (dst : Nat) :
    hostWait s dst = .next (s.bind dst s.status) := by
  simp [hostWait, hb]

/-- `wait` stays in front while its read sees BUSY (R68). -/
theorem hostWait_of_busy {s : State} (hb : s.busy) (dst : Nat) :
    hostWait s dst = .next ((s.bind dst s.status).setProg (.wait dst :: s.prog)) := by
  simp [hostWait, hb]

/-- A host read leaves the host-side values alone: binding is the host's own (R50, R67). -/
theorem busRead_vars {s t : State} {n : Nat} {a : Addr} {v : Word} (h : busRead s n a = .ok (v, t)) :
    t.vars = s.vars := by
  rcases busRead_effect s n a with ⟨_, he⟩ | ⟨_, _, _, _, he⟩
  · cases he.symm.trans h
  · cases he.symm.trans h
    rfl

/-- Settles O7: the host's move is its first access, performed. -/
theorem hostMovesInProgramOrder : Obligations.HostMovesInProgramOrder := by
  refine ⟨fun s n a v rest hp => hostMove_cons hp, fun s t n a dst v rest hp h => ?_, fun s dst rest hp hb => ?_,
    fun s dst rest hp hb => ?_⟩
  · have hvars : t.vars = s.vars := busRead_vars (s := s.setProg rest) h
    rw [hostMove_cons hp, ← hvars]
    exact hostRead_of_ok dst h
  · rw [hostMove_cons hp]
    exact hostWait_of_not_busy (s := s.setProg rest) hb dst
  · rw [hostMove_cons hp]
    refine (hostWait_of_busy (s := s.setProg rest) hb dst).trans ?_
    rw [State.setProg_prog, ← hp]
    rfl

/-! ## Which accesses are defined -/

theorem writeDefined_iff {p : Config.Params} {n a : Nat} :
    writeDefined p n a = true ↔ n = 4 ∧ a % 4 = 0 ∧ (regionOf p a = .reg ∨ regionOf p a = .img) := by
  unfold writeDefined
  cases regionOf p a <;> simp [alignedWord]

/-- Every defined write is a defined read too; beyond those only OUT can be read (R43). -/
theorem readDefined_iff {p : Config.Params} {n a : Nat} :
    readDefined p n a = true ↔ writeDefined p n a = true ∨ (regionOf p a = .out ∧ outReadOk p n a = true) := by
  unfold readDefined writeDefined
  cases regionOf p a <;> simp

/-- R38, R39: the aligned 32-bit accesses to REG and IMG, by address. -/
theorem writeDefined_iff_address {p : Config.Params} {n a : Nat} :
    writeDefined p n a = true
      ↔ n = 4 ∧ a % 4 = 0 ∧ (a ≤ 0x00003C ∨ (0x400000 ≤ a ∧ a < 0x400000 + 4 * p.imgCap)) := by
  rw [writeDefined_iff, regionOf_reg, regionOf_img, Config.imgBase]
  omega

/-- R43: the naturally aligned reads wholly inside OUT, by address. -/
theorem outRead_iff_address {p : Config.Params} {n a : Nat} :
    regionOf p a = .out ∧ outReadOk p n a = true
      ↔ (n = 1 ∨ n = 2 ∨ n = 4) ∧ a % n = 0 ∧ 0x800000 ≤ a ∧ a + n ≤ 0x800000 + p.outCap := by
  simp only [regionOf_out, outReadOk, Bool.and_eq_true, Bool.or_eq_true, decide_eq_true_eq]
  unfold Config.outBase
  omega

section Accesses

variable {s : State} {n : Nat} {a : Addr}

theorem busRead_of_defined (h : readDefined s.params n a.toNat = true) :
    busRead s n a = .ok (readValue s n a.toNat) := if_pos h

theorem busRead_of_undefined (h : ¬ readDefined s.params n a.toNat = true) :
    busRead s n a = .error (.busError a) := if_neg h

theorem busWrite_of_defined (h : writeDefined s.params n a.toNat = true) (v : Word) :
    ∃ t, busWrite s n a v = .next t := by
  rcases busWrite_effect s n a v with ⟨hf, _⟩ | ⟨_, t, ht, _⟩
  · rw [h] at hf
    cases hf
  · exact ⟨t, ht⟩

theorem busWrite_of_undefined (h : ¬ writeDefined s.params n a.toNat = true) (v : Word) :
    busWrite s n a v = .fault (.busError a) := if_neg h

end Accesses

/-- Settles O26: an access completes exactly where it is defined, and the two definedness tests by address. -/
theorem definedAccesses : Obligations.DefinedAccesses := by
  intro s n a v word outRead
  have hwrite : writeDefined s.params n a.toNat = true ↔ word := writeDefined_iff_address
  have hread : readDefined s.params n a.toNat = true ↔ word ∨ outRead :=
    readDefined_iff.trans (or_congr hwrite outRead_iff_address)
  exact ⟨fun h => ⟨_, busRead_of_defined (hread.2 h)⟩, fun h => busRead_of_undefined (mt hread.1 h),
    fun h => busWrite_of_defined (hwrite.2 h) v, fun h => busWrite_of_undefined (mt hwrite.1 h) v⟩

/-- Settles O32: a read's next state differs in the draws alone, and with none used it is the same state. -/
theorem readsHaveNoSideEffect : Obligations.ReadsHaveNoSideEffect := by
  intro s t n a v h
  rcases busRead_effect s n a with ⟨_, he⟩ | ⟨_, _, d, hle, he⟩
  · cases he.symm.trans h
  · cases he.symm.trans h
    exact ⟨rfl, hle, fun hd => by subst hd; exact h⟩

/-! ## IMG -/

/-- An aligned 32-bit write inside IMG is the write of that word (R39). -/
theorem busWrite_img {s : State} {a : Addr} (hr : regionOf s.params a.toNat = .img) (h4 : a.toNat % 4 = 0) (v : Word) :
    busWrite s 4 a v = .next (s.writeImg a.toNat v) := by
  simp [busWrite, writeDefined, writeEffect, hr, alignedWord, h4]

theorem State.writeImg_of_busy {s : State} (hb : s.busy) (a : Nat) (v : Word) : s.writeImg a v = s.setRej := if_pos hb

theorem State.writeImg_of_not_busy {s : State} (hb : ¬ s.busy) (a : Nat) (v : Word) :
    s.writeImg a v = { s with img := Memory.writeWord s.img a v } := if_neg hb

/-- Settles O28: the aligned write is the dropped `writeImg`, every other one is undefined. -/
theorem imgWriteWhileBusyDropped : Obligations.ImgWriteWhileBusyDropped := by
  intro s a v hb hr
  refine ⟨fun h4 => ?_, fun h4 => busWrite_of_undefined (fun h => h4 (writeDefined_iff.1 h).2.1) v,
    fun n hn => busWrite_of_undefined (fun h => hn (writeDefined_iff.1 h).1) v⟩
  rw [busWrite_img hr h4, State.writeImg_of_busy hb]
  rfl

/-- No command changes IMG (40_commands.md R72 to R74). -/
theorem IssueEffect.img {s t : State} {w : Word} (h : IssueEffect s w t) : t.img = s.img := by
  cases h <;> rfl

/-- Settles O29: of the effects of a step only a write to IMG could change it, and that is dropped while BUSY. -/
theorem imageFixedWhileBusy : Obligations.ImageFixedWhileBusy := by
  intro s t hb h
  cases step_change h with
  | command _ _ _ _ _ _ hw => exact hw.img
  | image _ a v rest ts => rw [State.writeImg_of_busy (s := (s.setTurns ts).setProg rest) hb]; rfl
  | quiet | width | height | finish => rfl
  | pixel => simp

/-- The words of IMG stand below OUT. -/
theorem imgAddr_add_four_le_outBase {p : Config.Params} {k : Nat} (hk : k < p.imgCap) : imgAddr k + 4 ≤ Config.outBase := by
  have := imgCap_le p
  unfold imgAddr Config.imgBase Config.outBase
  omega

theorem regionOf_imgAddr {p : Config.Params} {k : Nat} (hk : k < p.imgCap) : regionOf p (imgAddr k) = .img := by
  rw [regionOf_img]
  unfold imgAddr
  omega

theorem imgAddr_aligned (k : Nat) : imgAddr k % 4 = 0 := by
  unfold imgAddr Config.imgBase
  omega

/-- A 32-bit host read at the address of IMG word k is the read of that word (R39). -/
theorem busRead_img {s : State} {k : Nat} {a : Addr} (hk : k < s.params.imgCap) (ha : a.toNat = imgAddr k) :
    busRead s 4 a = .ok (s.readImg k) := by
  have hindex : (imgAddr k - Config.imgBase) / 4 = k := by unfold imgAddr; omega
  simp [busRead, readDefined, readValue, ha, regionOf_imgAddr hk, alignedWord, imgAddr_aligned, hindex]

theorem State.readImg_of_written {s : State} {k : Nat} {w : Word} (h : s.imgWord k = some w) :
    s.readImg k = (w, s) := by
  rw [State.readImg, h]

theorem State.readImg_of_unwritten {s : State} {k : Nat} (h : s.imgWord k = none) :
    s.readImg k = (Config.freeWord s.draws, { s with draws := s.draws + 1 }) := by
  rw [State.readImg, h]
  rfl

/-- R47: byte j of a word written at a stands at a + j. -/
theorem Memory.read_writeWord_byte (m : Memory) (a : Nat) (v : Word) {j : Nat} (hj : j < 4) :
    Memory.read (Memory.writeWord m a v) (a + j) = some (byteOfWord v j) := by
  simp only [Memory.writeWord, Memory.read_write]
  obtain rfl | rfl | rfl | rfl : j = 0 ∨ j = 1 ∨ j = 2 ∨ j = 3 := by omega
  all_goals simp

/-- Settles O27: the laws of `writeWord` and `readImg` at the word's address. -/
theorem imgWriteThenRead : Obligations.ImgWriteThenRead := by
  refine ⟨fun s k a hk (ha : a.toNat = imgAddr k) => ?_, fun s k a v hk (ha : a.toNat = imgAddr k) hb => ?_⟩
  · rw [busRead_img hk ha]
    exact ⟨fun w hw => by rw [State.readImg_of_written hw], fun hw => by rw [State.readImg_of_unwritten hw]⟩
  · have hr := regionOf_imgAddr hk
    have hlt := imgAddr_add_four_le_outBase hk
    have hstored : Memory.readWord (Memory.writeWord s.img (imgAddr k) v) (imgAddr k) = some v :=
      Memory.readWord_writeWord_same ..
    rw [busWrite_img (ha ▸ hr) (ha ▸ imgAddr_aligned k), State.writeImg_of_not_busy hb, ha]
    refine ⟨_, rfl, hstored, fun b hb => ?_, fun j hj => ?_, rfl, fun u hparams himg => ?_⟩
    · simp only [State.memByte, Memory.read_writeWord_other _ _ _ _ hb]
    · rw [State.memByte, if_pos (by omega)]
      exact Memory.read_writeWord_byte _ _ _ hj
    · rw [busRead_img (hparams ▸ hk) ha,
        State.readImg_of_written (show Memory.readWord u.img (imgAddr k) = some v from himg ▸ hstored)]

/-! ## OUT -/

/-- How many bytes from index i of OUT on a host read obtains as the job left them: those below OUT_LEN, none while
BUSY (R44, R45). -/
def State.validOut (s : State) (i : Nat) : Nat := if s.busy then 0 else s.outLen.toNat - i

/-- Byte j of a read whose first m bytes are b's, the d-th free value being the next (R44, R45; log 5). -/
def readByte (d m : Nat) (b : Nat → Byte) (j : Nat) : Byte :=
  if j < m then b j else Config.freeByte (d + (j - m))

theorem State.validOut_succ (s : State) (i : Nat) : s.validOut (i + 1) = s.validOut i - 1 := by
  unfold State.validOut
  split <;> omega

/-- The bytes after the first, where the first has used up a free value exactly if it is none of b's. -/
theorem readByte_tail (d m : Nat) (b : Nat → Byte) (j : Nat) :
    readByte (d + (1 - m)) (m - 1) (fun l => b (l + 1)) j = readByte d m b (j + 1) := by
  have hdraw : d + (1 - m) + (j - (m - 1)) = d + (j + 1 - m) := by omega
  have hvalid : j < m - 1 ↔ j + 1 < m := by omega
  simp only [readByte, hdraw, hvalid]

/-- One byte of OUT as the host reads it (R44, R45). -/
theorem State.readOutByte_eq {s : State} {i : Nat} {b : Nat → Byte}
    (h : 0 < s.validOut i → s.outByte i = some (b 0)) :
    s.readOutByte i
      = (readByte s.draws (s.validOut i) b 0, { s with draws := s.draws + (1 - s.validOut i) }) := by
  unfold State.readOutByte
  split
  · rename_i hfree
    have hm : s.validOut i = 0 := by
      unfold State.validOut
      split
      · rfl
      · have := hfree.resolve_left ‹_›; omega
    rw [hm]
    rfl
  · rename_i hvalid
    have hm : 0 < s.validOut i := by
      obtain ⟨hb, hlt⟩ := not_or.1 hvalid
      rw [State.validOut, if_neg hb]
      omega
    have hused : s.draws + (1 - s.validOut i) = s.draws := by omega
    rw [h hm, hused, readByte, if_pos hm]

/-- R47: the lowest byte of a word put together from its lowest byte and the rest. -/
theorem byteOfWord_join_zero (r : Byte) (w : Word) : byteOfWord (r.setWidth 32 ||| w <<< 8) 0 = r := by
  apply BitVec.eq_of_getLsbD_eq
  intro i hi
  simp [byteOfWord, hi, show i < 32 by omega]

/-- R47: the bytes above it are those of the rest. -/
theorem byteOfWord_join_succ (r : Byte) (w : Word) {j : Nat} (hj : j + 1 < 4) :
    byteOfWord (r.setWidth 32 ||| w <<< 8) (j + 1) = byteOfWord w j := by
  apply BitVec.eq_of_getLsbD_eq
  intro i hi
  have hsub : 8 * (j + 1) + i - 8 = 8 * j + i := by omega
  simp [byteOfWord, hi, hsub, BitVec.getLsbD_of_ge r (8 * (j + 1) + i) (by omega)]
  omega

/-- A read of n bytes of OUT: how many free values it uses up, and its bytes (R43 to R45, R47). -/
theorem State.readOut_bytes (n : Nat) : ∀ (s : State) (i : Nat) (b : Nat → Byte),
    (∀ j < n, j < s.validOut i → s.outByte (i + j) = some (b j)) →
    (s.readOut n i).2 = { s with draws := s.draws + (n - s.validOut i) }
      ∧ ∀ j < 4, byteOfWord (s.readOut n i).1 j = if j < n then readByte s.draws (s.validOut i) b j else 0 := by
  induction n with
  | zero =>
    intro s i b _
    refine ⟨by simp [State.readOut], fun j _ => ?_⟩
    simp [State.readOut, byteOfWord]
  | succ n ih =>
    intro s i b hlisted
    have hfirst := State.readOutByte_eq (hlisted 0 (Nat.succ_pos n))
    have hvalid := s.validOut_succ i
    obtain ⟨hstate, hbytes⟩ := ih { s with draws := s.draws + (1 - s.validOut i) } (i + 1) (fun l => b (l + 1))
      (fun j hj (hm : j < s.validOut (i + 1)) => by
        rw [Nat.add_right_comm]
        exact hlisted (j + 1) (by omega) (by omega))
    change _ = { s with draws := s.draws + (1 - s.validOut i) + (n - s.validOut (i + 1)) } at hstate
    change ∀ j < 4, _ = if j < n then readByte (s.draws + (1 - s.validOut i)) (s.validOut (i + 1)) _ j else 0 at hbytes
    rw [State.readOut, hfirst]
    constructor
    · have hdraws : s.draws + (1 - s.validOut i) + (n - s.validOut (i + 1)) = s.draws + (n + 1 - s.validOut i) := by
        omega
      exact hstate.trans (by rw [hdraws])
    · intro j hj
      cases j with
      | zero => rw [byteOfWord_join_zero, if_pos (Nat.succ_pos n)]
      | succ j =>
        rw [byteOfWord_join_succ _ _ hj, hbytes j (by omega), hvalid, readByte_tail]
        simp only [Nat.add_lt_add_iff_right]

/-- A defined host read of OUT is the read of its bytes (R43). -/
theorem busRead_out {s : State} {n i : Nat} {a : Addr} (hn : n = 1 ∨ n = 2 ∨ n = 4) (hi : i % n = 0)
    (ha : a.toNat = outAddr i) (hfits : i + n ≤ s.params.outCap) : busRead s n a = .ok (s.readOut n i) := by
  unfold outAddr Config.outBase at ha
  have haligned : a.toNat % n = 0 := by rcases hn with rfl | rfl | rfl <;> omega
  have hout := outRead_iff_address (p := s.params) |>.2 ⟨hn, haligned, by omega, by omega⟩
  have hindex : a.toNat - Config.outBase = i := by unfold Config.outBase; omega
  rw [busRead_of_defined (readDefined_iff.2 (.inr hout)), readValue, hout.1]
  dsimp only
  rw [hindex]

/-- Settles O31: the read is `readOut`, whose bytes `readOut_bytes` gives. -/
theorem outReadBytes : Obligations.OutReadBytes := by
  intro s n i a b hn hi ha hfits m hlisted
  obtain ⟨hstate, hbytes⟩ := s.readOut_bytes n i b hlisted
  refine ⟨(s.readOut n i).1, ?_, fun j hj => ?_, fun j hj h4 => ?_⟩
  · rw [busRead_out hn hi ha hfits]
    exact congrArg Except.ok (Prod.ext rfl hstate)
  · exact (hbytes j (by omega)).trans (if_pos hj)
  · exact (hbytes j h4).trans (if_neg (by omega))

/-! ## The output stream after a job -/

/-- The output stream is made of STATE, OUT_LEN and the bytes of OUT (45_output_stream.md R110). -/
theorem outputStream_congr {s t : State} (hstate : t.jobState = s.jobState) (hlen : t.outLen = s.outLen)
    (hout : ∀ i, t.outByte i = s.outByte i) : t.outputStream = s.outputStream := by
  rw [State.outputStream, State.outputStream, hstate, hlen, funext hout]

/-- A word that is neither PROCESS nor RESET leaves OUT_LEN and OUT as they are, and STATE but for ERROR (R53). -/
theorem IssueEffect.keepsOutput {s t : State} {w : Word} (h : IssueEffect s w t)
    (hw : decodeWord w ≠ .ok .process ∧ decodeWord w ≠ .ok .reset) :
    (t.jobState = s.jobState ∨ t.jobState = .error) ∧ t.outLen = s.outLen ∧ t.out = s.out := by
  obtain ⟨hprocess, hreset⟩ := hw
  cases h with
  | nop | rejected => exact ⟨.inl rfl, rfl, rfl⟩
  | illegal => exact ⟨.inr rfl, rfl, rfl⟩
  | refused _ hp | accepted _ hp => exact absurd hp hprocess
  | abandoned hr => exact absurd hr hreset

/-- While no job runs, a step that issues neither PROCESS nor RESET leaves them too (R45, R53). -/
theorem StepChange.keepsOutput {s t : State} (h : StepChange s t) (hb : ¬ s.busy)
    (hcmd : ∀ w, nextCommand s = some w → decodeWord w ≠ .ok .process ∧ decodeWord w ≠ .ok .reset) :
    (t.jobState = s.jobState ∨ t.jobState = .error) ∧ t.outLen = s.outLen ∧ t.out = s.out := by
  cases h with
  | quiet | width | height | image => simp
  | pixel _ hbusy | finish _ hbusy => exact absurd hbusy hb
  | command hm w _ _ hp _ hw => exact hw.keepsOutput (hcmd w (nextCommand_of_ctrl hm hp))

/-- Settles O33: the stream is made of what such a step leaves alone. -/
theorem streamStableAfterDone : Obligations.StreamStableAfterDone := by
  intro s t hb h hcmd
  obtain ⟨hstate, hlen, hout⟩ := (step_change h).keepsOutput hb hcmd
  have hbytes (i : Nat) : t.outByte i = s.outByte i := by rw [State.outByte, State.outByte, hout]
  exact ⟨hstate, hlen, hbytes, fun hs ht => outputStream_congr (ht.trans hs.symm) hlen hbytes⟩

end Sys2Proof.Machine

/-! SUPPORT. Proofs about command words and the expansion of host programs (spec 30_encoding.md). -/

namespace Sys2Proof.Machine

/-! ## Command words -/

/-- A command word is its two fields, RSVD above OP (R58). -/
theorem rsvdField_append_opField (w : Word) : rsvdField w ++ opField w = w :=
  BitVec.extractLsb'_append_extractLsb' (w := 24) (len := 8)

@[simp] theorem rsvdField_encode (i : Instr) : rsvdField (encode i) = 0 := BitVec.extractLsb'_append_eq_left

@[simp] theorem opField_encode (i : Instr) : opField (encode i) = i.opcode := BitVec.extractLsb'_append_eq_right

/-- The word of a command is the one with its opcode and RSVD zero (R60). -/
theorem eq_encode_iff_fields {w : Word} {i : Instr} : w = encode i ↔ rsvdField w = 0 ∧ opField w = i.opcode := by
  constructor
  · rintro rfl
    simp
  · rintro ⟨hrsvd, hop⟩
    rw [← rsvdField_append_opField w, hrsvd, hop, encode]

theorem decodeWord_of_rsvd {w : Word} (h : rsvdField w ≠ 0) : decodeWord w = .error .rsvdNonZero := if_pos h

/-- OP is 0x03 or more: no opcode of the map (R61). -/
theorem decodeWord_of_reservedOp {w : Word} (hrsvd : rsvdField w = 0) (hop : 3 ≤ (opField w).toNat) :
    decodeWord w = .error .opReserved := by
  have hne (b : Byte) (hb : b.toNat < 3) : opField w ≠ b := by
    rintro rfl
    omega
  rw [decodeWord, if_neg (not_not.2 hrsvd), if_neg (hne 0x00 (by decide)), if_neg (hne 0x01 (by decide)),
    if_neg (hne 0x02 (by decide))]

theorem decodeWord_encode (i : Instr) : decodeWord (encode i) = .ok i := by
  cases i <;> decide

/-- The only command the decoder reads from a word is the one whose opcode the word holds, under RSVD zero (R59). -/
theorem fields_of_decodeWord {w : Word} {i : Instr} (h : decodeWord w = .ok i) :
    rsvdField w = 0 ∧ opField w = i.opcode := by
  unfold decodeWord at h
  split at h
  · cases h
  rename_i hrsvd
  refine ⟨not_not.1 hrsvd, ?_⟩
  split at h
  · cases h; assumption
  split at h
  · cases h; assumption
  split at h
  · cases h; assumption
  · cases h

/-- Settles O3: both sides say that RSVD is zero and OP is the command's opcode. -/
theorem decodeAcceptsOnlyEncodings : Obligations.DecodeAcceptsOnlyEncodings := by
  intro w i
  constructor
  · exact fun h => eq_encode_iff_fields.2 (fields_of_decodeWord h)
  · rintro rfl
    exact decodeWord_encode i

/-- Settles O1: the first three are words of commands, the next two have a reserved OP, the last three a nonzero RSVD. -/
theorem tableWordsDecode : Obligations.TableWordsDecode :=
  ⟨decodeWord_encode .nop, decodeWord_encode .process, decodeWord_encode .reset,
    decodeWord_of_reservedOp (by decide) (by decide), decodeWord_of_reservedOp (by decide) (by decide),
    decodeWord_of_rsvd (by decide), decodeWord_of_rsvd (by decide), decodeWord_of_rsvd (by decide)⟩

/-- Settles O2: both decoders decode the word that the bytes or the table's bits make up. -/
theorem encodeThenDecode : Obligations.EncodeThenDecode := by
  intro i rest _
  constructor
  · rw [encodeBytes, decodeBytes_bytesOfWord, decodeWord_encode]
    rfl
  · rw [decodeTableWord_eq, tableWord_toNat, decodeWord_encode]
    rfl

theorem decodeWord_illegal {w : Word} (h : rsvdField w ≠ 0 ∨ 3 ≤ (opField w).toNat) :
    ∃ r, decodeWord w = .error r := by
  by_cases hrsvd : rsvdField w = 0
  · exact ⟨_, decodeWord_of_reservedOp hrsvd (h.resolve_left (not_not.2 hrsvd))⟩
  · exact ⟨_, decodeWord_of_rsvd hrsvd⟩

/-- A CTRL write of an illegal word has the effect of `illegalCommand` (R70). -/
theorem busWrite_ctrl_of_illegal (s : State) {w : Word} {r : Illegal} (hw : decodeWord w = .error r) :
    busWrite s 4 0 w = .next (illegalCommand s) :=
  (busWrite_ctrl s w).trans (issueCommand_of_illegal s hw)

theorem illegalCommand_of_busy {s : State} (hb : s.busy) : illegalCommand s = s.setRej := if_pos hb

theorem illegalCommand_of_not_busy {s : State} (hb : ¬ s.busy) :
    illegalCommand s = s.raiseBlockError .illegalCmd := if_neg hb

/-- Settles O4: such a word decodes ILLEGAL, and `illegalCommand` raises ILLEGAL_CMD or sets REJ. -/
theorem illegalWordEffect : Obligations.IllegalWordEffect := by
  intro s w h
  obtain ⟨r, hw⟩ := decodeWord_illegal h
  refine ⟨⟨r, hw⟩, fun hb => ?_, fun hb => ?_⟩
  · rw [busWrite_ctrl_of_illegal s hw, illegalCommand_of_not_busy hb]
    rfl
  · rw [busWrite_ctrl_of_illegal s hw, illegalCommand_of_busy hb]
    rfl

/-! ## Pseudo-instructions -/

/-- A line whose numerals are those of an address and of a word is the write of that word (R67). -/
theorem writeLine_of_toNat {n : Nat} {a : Addr} (ha : a.toNat = n) (v : Word) :
    writeLine n v.toNat = some (.wr 4 a v) := by
  subst ha
  rw [writeLine_eq, if_pos ⟨a.isLt, v.isLt⟩, BitVec.ofNat_toNat, BitVec.ofNat_toNat, BitVec.setWidth_eq,
    BitVec.setWidth_eq]

theorem writeLine_of_large_address {n : Nat} (hn : 2 ^ 24 ≤ n) (v : Nat) : writeLine n v = none := by
  rw [writeLine_eq, if_neg fun h => Nat.not_lt.2 hn h.1]

theorem setdimLines_of_toNat (W H : Word) :
    setdimLines W.toNat H.toNat = [some (.wr 4 0x000008 W), some (.wr 4 0x00000C H)] := by
  rw [setdimLines, writeLine_of_toNat (a := 0x000008) (n := 0x000008) rfl,
    writeLine_of_toNat (a := 0x00000C) (n := 0x00000C) rfl]

/-- A well-formed pseudo-instruction, each of whose lines is an access, expands to those accesses. -/
theorem expand_of_lines {p : Pseudo} {ops : List BusOp} (hp : p.wellFormed = true) (h : p.lines = ops.map some) :
    p.expand = some ops := by
  rw [Pseudo.expand, if_pos hp, (allLines_eq_some _ _).2 h]

theorem expand_of_not_wellFormed {p : Pseudo} (hp : ¬ p.wellFormed = true) : p.expand = none := if_neg hp

/-- The writes of a frame's pixels in row-major order, pixel k to word k of IMG (R68, R39). -/
def pixelWrites (pixels : List Word) : List BusOp :=
  pixels.mapIdx fun k v => .wr 4 (BitVec.ofNat 24 (imgAddr k)) v

@[simp] theorem pixelWrites_length (pixels : List Word) : (pixelWrites pixels).length = pixels.length :=
  List.length_mapIdx

theorem pixelWrites_getElem? (pixels : List Word) (k : Nat) :
    (pixelWrites pixels)[k]? = pixels[k]?.map fun v => .wr 4 (BitVec.ofNat 24 (imgAddr k)) v :=
  List.getElem?_mapIdx

/-- The address of a pixel of a frame that ends within 24 bits is exact (R7). -/
theorem imgAddr_toNat {n k : Nat} (hn : 4 * n ≤ 0xC00000) (hk : k < n) :
    (BitVec.ofNat 24 (imgAddr k)).toNat = imgAddr k := by
  rw [BitVec.toNat_ofNat, Nat.mod_eq_of_lt]
  unfold imgAddr Config.imgBase
  omega

/-- The pixel lines of `display` are the writes of its pixels, where their addresses have 24 bits. -/
theorem pixLines_eq_pixelWrites (W : Nat) {pixels : List Word} (h : 4 * pixels.length ≤ 0xC00000) :
    pixLines W 0 (pixels.map (·.toNat)) = (pixelWrites pixels).map some := by
  apply List.ext_getElem?
  intro k
  rw [pixLines_getElem?, List.getElem?_map, List.getElem?_map, pixelWrites_getElem?, Nat.zero_add]
  by_cases hk : k < pixels.length
  · rw [List.getElem?_eq_getElem hk]
    exact congrArg some ((pixLine_divMod k W _).trans (writeLine_of_toNat (imgAddr_toNat h hk) _))
  · rw [List.getElem?_eq_none (Nat.not_lt.1 hk)]
    rfl

/-- `display` is setdim, the writes of its pixels, process and wait (R68). -/
theorem display_expand {W H : Word} {pixels : List Word} (hlen : pixels.length = W.toNat * H.toNat)
    (hfits : 4 * pixels.length ≤ 0xC00000) (dst : Nat) :
    (Pseudo.display W.toNat H.toNat (pixels.map (·.toNat)) dst).expand
      = some ([.wr 4 0x000008 W, .wr 4 0x00000C H] ++ pixelWrites pixels
          ++ [.wr 4 0x000000 0x00000001, .wait dst]) := by
  apply expand_of_lines
  · simp [Pseudo.wellFormed, hlen]
  · have hprocess : writeLine 0x000000 0x00000001 = some (.wr 4 0x000000 0x00000001) := rfl
    rw [Pseudo.lines, setdimLines_of_toNat, pixLines_eq_pixelWrites W.toNat hfits, hprocess, List.map_append,
      List.map_append]
    rfl

/-- A frame's pixel (x, y) is written at place y*W + x, with its value and its exact address. -/
theorem pixelWrites_pixel {W H : Nat} {pixels : List Word} (hlen : pixels.length = W * H)
    (hfits : 4 * pixels.length ≤ 0xC00000) {x y : Nat} (hx : x < W) (hy : y < H) :
    ∃ (a : Addr) (v : Word), a.toNat = imgAddr (y * W + x) ∧ pixels[y * W + x]? = some v
      ∧ (pixelWrites pixels)[y * W + x]? = some (.wr 4 a v) := by
  have hk : y * W + x < pixels.length := hlen ▸ pixelIndex_lt hx hy
  have hv := List.getElem?_eq_getElem hk
  exact ⟨_, _, imgAddr_toNat hfits hk, hv, by rw [pixelWrites_getElem?, hv]; rfl⟩

/-- Settles O57: the fixed lines evaluate, `pix` is one write or none, `display` is `pixelWrites` between fixed lines. -/
theorem pseudoExpansions : Obligations.PseudoExpansions := by
  refine ⟨rfl, rfl, rfl, fun dst => rfl, fun W H => ?_, fun x y W a v ha => ?_, fun x y W v h => ?_,
    fun W H pixels dst => ⟨fun hlen => ?_, fun hlen hfits => ?_⟩⟩
  · exact expand_of_lines rfl (setdimLines_of_toNat W H)
  · exact expand_of_lines rfl (congrArg (fun line => [line]) (writeLine_of_toNat ha v))
  · have hline : pixLine x y W v = none := writeLine_of_large_address h v
    rw [Pseudo.expand, Pseudo.lines, hline]
    rfl
  · exact expand_of_not_wellFormed (by simp [Pseudo.wellFormed, hlen])
  · rw [← hlen] at hfits
    exact ⟨pixelWrites pixels, display_expand hlen hfits dst, (pixelWrites_length pixels).trans hlen,
      fun x y hx hy => pixelWrites_pixel hlen hfits hx hy⟩

end Sys2Proof.Machine

/-! SUPPORT. Proofs about the commands and the job engine (spec 40_commands.md). -/

namespace Sys2Proof.Machine
open Sys2Proof.Safety

/-! ## Commands -/

theorem exec_nop (s : State) : exec .nop s = .next s := rfl

theorem exec_reset (s : State) : exec .reset s = .next s.clearStatus.abandonJob := rfl

theorem exec_process_of_busy {s : State} (hb : s.busy) : exec .process s = .next s.setRej := by
  simp [exec, execProcess, hb]

theorem exec_process_of_zero {s : State} (hb : ¬ s.busy) (hz : s.imgW.toNat = 0 ∨ s.imgH.toNat = 0) :
    exec .process s = .next (s.raiseBlockError .zeroSize) := by
  simp only [exec, execProcess]
  rw [if_neg hb, if_pos hz]

section NonZero

variable {s : State} (hb : ¬ s.busy) (hW : s.imgW.toNat ≠ 0) (hH : s.imgH.toNat ≠ 0)
include hb hW hH

theorem exec_process_of_large (hl : s.params.imgCap < s.imgW.toNat * s.imgH.toNat
      ∨ s.params.outCap < outputLength s.params.rowPad s.imgW.toNat s.imgH.toNat) :
    exec .process s = .next (s.raiseBlockError .oversize) := by
  have hlarge : s.tooLarge s.imgW.toNat s.imgH.toNat = true := by simpa [State.tooLarge] using hl
  simp only [exec, execProcess]
  rw [if_neg hb, if_neg (not_or.2 ⟨hW, hH⟩), if_pos hlarge]

theorem exec_process_of_fits (hi : s.imgW.toNat * s.imgH.toNat ≤ s.params.imgCap)
    (ho : outputLength s.params.rowPad s.imgW.toNat s.imgH.toNat ≤ s.params.outCap) :
    exec .process s
      = .next (s.acceptJob s.imgW.toNat s.imgH.toNat (outputLength s.params.rowPad s.imgW.toNat s.imgH.toNat)) := by
  have hlarge : ¬ s.tooLarge s.imgW.toNat s.imgH.toNat = true := by simp [State.tooLarge, hi, ho]
  simp only [exec, execProcess]
  rw [if_neg hb, if_neg (not_or.2 ⟨hW, hH⟩), if_neg hlarge]

end NonZero

/-- Every command's effect is one of its own word's (R70). -/
theorem exec_issueEffect {i : Instr} {s t : State} (h : exec i s = .next t) : IssueEffect s (encode i) t := by
  obtain ⟨u, hu, he⟩ := issueCommand_issueEffect s (encode i)
  rw [issueCommand_of_decode s (decodeWord_encode i), h] at hu
  cases hu
  exact he

theorem busWrite_ctrl_of_decode {w : Word} {i : Instr} (s : State) (hw : decodeWord w = .ok i) :
    busWrite s 4 0 w = exec i s :=
  (busWrite_ctrl s w).trans (issueCommand_of_decode s hw)

/-- While BUSY a CTRL write of PROCESS or of an illegal word sets REJ alone (R71). -/
theorem busWrite_ctrl_rejected {s : State} {w : Word} (hb : s.busy)
    (hw : decodeWord w = .ok .process ∨ ∃ r, decodeWord w = .error r) : busWrite s 4 0 w = .next s.setRej := by
  rcases hw with hw | ⟨r, hw⟩
  · rw [busWrite_ctrl_of_decode s hw, exec_process_of_busy hb]
  · rw [busWrite_ctrl_of_illegal s hw, illegalCommand_of_busy hb]

/-- Settles O10: a CTRL write is the command of its word, or what `illegalCommand` does. -/
theorem ctrlWriteDispatch : Obligations.CtrlWriteDispatch := by
  intro s w
  refine ⟨fun hb => ⟨busWrite_ctrl_of_decode s, busWrite_ctrl_of_decode s, fun hnop hreset => ?_⟩, fun hb =>
    ⟨fun ⟨r, hw⟩ => ?_, fun i => busWrite_ctrl_of_decode s⟩⟩
  · refine busWrite_ctrl_rejected hb ?_
    cases hw : decodeWord w with
    | error r => exact .inr ⟨r, rfl⟩
    | ok i =>
      cases i with
      | nop => exact absurd hw hnop
      | process => exact .inl rfl
      | reset => exact absurd hw hreset
  · rw [busWrite_ctrl_of_illegal s hw, illegalCommand_of_not_busy hb]
    rfl

/-- Settles O11: `setRej` is the state with REJ set. -/
theorem busyRejectsProcessAndIllegal : Obligations.BusyRejectsProcessAndIllegal :=
  fun _ hb => ⟨exec_process_of_busy hb, fun _ hw => busWrite_ctrl_rejected hb hw⟩

/-- Settles O12: the word 0x00000100 has a nonzero RSVD. -/
theorem nopHasNoEffect : Obligations.NopHasNoEffect :=
  ⟨exec_nop, by decide, _, decodeWord_of_rsvd (by decide)⟩

theorem outputLength_eq (rowPad : Bool) (W H : Nat) :
    outputLength rowPad W H = if rowPad then H * ((W + 7) / 8) else (W * H + 7) / 8 := by
  simp only [outputLength, ceil8_eq]

theorem bytesPerRow_eq (rowPad : Bool) (W : Nat) : bytesPerRow rowPad W = if rowPad then (W + 7) / 8 else 0 := by
  simp only [bytesPerRow, ceil8_eq]

/-- Settles O13: each outcome is `raiseBlockError` or `acceptJob`, whose latch is exact under the job's invariant. -/
theorem processOutcome : Obligations.ProcessOutcome := by
  intro s hb
  dsimp only
  rw [← outputLength_eq]
  refine ⟨exec_process_of_zero hb, exec_process_of_large hb, fun hW hH hi ho => ?_⟩
  have hj := jobInv_acceptJob hW hH hi ho
  have hrow := hj.rowBytes
  have hlen := hj.length
  simp only [State.acceptJob_params, State.acceptJob_jw, State.acceptJob_jh, BitVec.ofNat_toNat,
    BitVec.setWidth_eq] at hrow hlen
  obtain ⟨hrows, hcolumns⟩ := ErrPlane.sized_zero s.imgW.toNat s.imgH.toNat
  refine ⟨_, exec_process_of_fits hb hW hH hi ho, rfl, by simp, by simp, hrow.trans (bytesPerRow_eq _ _), hlen, hrows,
    hcolumns, fun y x _ _ => ErrPlane.get_zero _ _ y x, rfl, rfl, rfl, rfl, rfl, rfl, rfl, rfl⟩

theorem status_reset (s : State) : s.clearStatus.abandonJob.status = 0 :=
  show statusWord .idle false .none = 0 by decide

/-- Settles O14: RESET clears STATUS and OUT and leaves no job for the engine. -/
theorem resetReturnsToIdle : Obligations.ResetReturnsToIdle :=
  fun s => ⟨_, exec_reset s, rfl, rfl, rfl, rfl, status_reset s, rfl, rfl, rfl, rfl, fun _ => rfl,
    engineMove_of_not_busy (by simp)⟩

/-! ## What commands leave unchanged -/

/-- No command changes the dimension registers or the host (R72 to R74). -/
theorem IssueEffect.hostFields {s t : State} {w : Word} (h : IssueEffect s w t) :
    t.imgW = s.imgW ∧ t.imgH = s.imgH ∧ t.prog = s.prog ∧ t.turns = s.turns ∧ t.vars = s.vars := by
  cases h <;> exact ⟨rfl, rfl, rfl, rfl, rfl⟩

theorem memByte_below_outBase {s t : State} (h : t.img = s.img) {a : Nat} (ha : a < Config.outBase) :
    t.memByte a = s.memByte a := by
  rw [State.memByte, State.memByte, if_pos ha, if_pos ha, h]

theorem memByte_congr {s t : State} (himg : t.img = s.img) (hout : t.out = s.out) (a : Nat) :
    t.memByte a = s.memByte a := by
  rw [State.memByte, State.memByte, himg, hout]

/-- Every effect of PROCESS: it is rejected while BUSY, and else refused or accepted (R71, R73). -/
inductive ProcessEffect (s : State) : State → Prop
  | rejected (hb : s.busy) : ProcessEffect s s.setRej
  | refused (hb : ¬ s.busy) (c : ErrCode) : ProcessEffect s (s.raiseBlockError c)
  | accepted (hb : ¬ s.busy) (hW : s.imgW.toNat ≠ 0) (hH : s.imgH.toNat ≠ 0)
      (hi : s.imgW.toNat * s.imgH.toNat ≤ s.params.imgCap)
      (ho : outputLength s.params.rowPad s.imgW.toNat s.imgH.toNat ≤ s.params.outCap) :
      ProcessEffect s
        (s.acceptJob s.imgW.toNat s.imgH.toNat (outputLength s.params.rowPad s.imgW.toNat s.imgH.toNat))

theorem exec_process_effect {s t : State} (h : exec .process s = .next t) : ProcessEffect s t := by
  cases exec_issueEffect h with
  | nop hw | abandoned hw => simp [decodeWord_encode] at hw
  | illegal _ hw => simp [decodeWord_encode] at hw
  | rejected hb => exact .rejected hb
  | refused hb _ c => exact .refused hb c
  | accepted hb _ hW hH hi ho => exact .accepted hb hW hH hi ho

/-- Settles O15: the effects of a word leave IMG and the host alone, those of PROCESS leave OUT too. -/
theorem commandFrame : Obligations.CommandFrame := by
  intro i s t h
  have he := exec_issueEffect h
  obtain ⟨hW, hH, hprog, hturns, hvars⟩ := he.hostFields
  refine ⟨⟨he.params, hW, hH, hprog, hturns, hvars, fun a => memByte_below_outBase he.img⟩, ?_, ?_⟩
  · rintro rfl
    cases h
    rfl
  · rintro rfl
    cases exec_process_effect h with
    | rejected hb =>
      exact ⟨memByte_congr rfl rfl, rfl, fun _ => ⟨rfl, rfl, rfl⟩,
        fun hs => (by cases hs.symm.trans (State.busy_iff.1 hb)), fun _ => by simp⟩
    | refused hb c =>
      exact ⟨memByte_congr rfl rfl, rfl, fun hb' => absurd hb' hb, fun _ => rfl, fun _ => by simp⟩
    | accepted hb =>
      exact ⟨memByte_congr rfl rfl, rfl, fun hb' => absurd hb' hb, fun hs => (by cases hs),
        fun hn => by simp [hb] at hn⟩

/-! ## The error plane as R96's array -/

/-- The error plane with its entries as exact integers: the array E of R96. -/
def ErrPlane.toErrors (p : ErrPlane) : ErrArray := p.map (·.map BitVec.toInt)

/-- Every entry of a plane is at most b in magnitude. -/
def ErrPlane.Within (p : ErrPlane) (b : Int) : Prop :=
  ∀ y x, -b ≤ (ErrPlane.get p y x).toInt ∧ (ErrPlane.get p y x).toInt ≤ b

theorem ErrPlane.toErrors_row (p : ErrPlane) (y : Nat) :
    (ErrPlane.toErrors p).getD y [] = (p.getD y []).map BitVec.toInt :=
  List.getD_map p [] (List.map BitVec.toInt)

theorem ErrPlane.get_toErrors (p : ErrPlane) (y x : Nat) :
    ErrArray.get (ErrPlane.toErrors p) y x = (ErrPlane.get p y x).toInt := by
  rw [ErrArray.get, ErrPlane.toErrors_row]
  exact List.getD_map _ (0 : Half) BitVec.toInt

theorem ErrPlane.toErrors_zero (W H : Nat) :
    ErrPlane.toErrors (ErrPlane.zero W H) = List.replicate H (List.replicate W 0) := by
  simp [ErrPlane.toErrors, ErrPlane.zero]

/-- An addition that stays an s16 is the exact one of R96. -/
theorem ErrPlane.toErrors_add {p : ErrPlane} {y x : Nat} {d : Int}
    (h : -32768 ≤ (ErrPlane.get p y x).toInt + d ∧ (ErrPlane.get p y x).toInt + d < 32768) :
    ErrPlane.toErrors (ErrPlane.add p y x d) = ErrArray.add (ErrPlane.toErrors p) y x d := by
  have hsum : (BitVec.ofInt 16 ((ErrPlane.get p y x).toInt + d)).toInt = (ErrPlane.get p y x).toInt + d := by
    rw [BitVec.toInt_ofInt, Int.bmod_eq_of_le (by simpa using h.1) (by simpa using h.2)]
  rw [ErrArray.add, ErrPlane.toErrors_row, ErrPlane.get_toErrors, ErrPlane.toErrors, ErrPlane.add, ErrPlane.set,
    List.map_set, List.map_set, hsum]
  rfl

/-- A read after one entry is replaced: the new entry or the old one, whatever the sizes. -/
theorem ErrPlane.get_set_cases (p : ErrPlane) (y x : Nat) (e : Half) (y' x' : Nat) :
    ErrPlane.get (ErrPlane.set p y x e) y' x' = e
      ∨ ErrPlane.get (ErrPlane.set p y x e) y' x' = ErrPlane.get p y' x' := by
  simp only [ErrPlane.get, ErrPlane.set, List.getD_eq_getElem?_getD, List.getElem?_set]
  split
  · subst y'
    split
    · simp only [Option.getD_some, List.getElem?_set]
      split
      · subst x'
        split
        · exact .inl rfl
        · simp_all
      · exact .inr rfl
    · simp_all
  · exact .inr rfl

/-- One guarded update of Diffuse, on entries that keep clear of the ends of an s16. -/
theorem ErrPlane.toErrors_addIf {p : ErrPlane} {b c d : Int} {G : Prop} [Decidable G] (hp : ErrPlane.Within p b)
    (hd : -c ≤ d ∧ d ≤ c) (hbc : b + c ≤ 32767) (y x : Nat) :
    ErrPlane.Within (if G then ErrPlane.add p y x d else p) (b + c)
      ∧ ErrPlane.toErrors (if G then ErrPlane.add p y x d else p)
        = if G then ErrArray.add (ErrPlane.toErrors p) y x d else ErrPlane.toErrors p := by
  have hentry := hp y x
  split
  · refine ⟨fun y' x' => ?_, ErrPlane.toErrors_add (by omega)⟩
    have hold := hp y' x'
    rcases ErrPlane.get_set_cases p y x (BitVec.ofInt 16 ((ErrPlane.get p y x).toInt + d)) y' x' with h | h <;>
      rw [ErrPlane.add, h]
    · rw [BitVec.toInt_ofInt, Int.bmod_eq_of_le (by simp; omega) (by simp; omega)]
      omega
    · omega
  · exact ⟨fun y' x' => by have := hp y' x'; omega, rfl⟩

/-- R91: Diffuse on the plane is Diffuse on the exact array, while the entries keep clear of the ends of an s16. -/
theorem ErrPlane.toErrors_diffuse {p : ErrPlane} {e : Int} (hp : ErrPlane.Within p 124) (he : -127 ≤ e ∧ e ≤ 127)
    (W H x y : Nat) :
    ErrPlane.toErrors (ErrPlane.diffuse p W H x y e) = ErrArray.diffuse (ErrPlane.toErrors p) W H x y e := by
  obtain ⟨hr, hbl, hb, hbr⟩ := share_bounds he
  obtain ⟨w1, e1⟩ := ErrPlane.toErrors_addIf (G := x + 1 < W) hp hr (by decide) y (x + 1)
  obtain ⟨w2, e2⟩ := ErrPlane.toErrors_addIf (G := y + 1 < H ∧ 1 ≤ x) w1 hbl (by decide) (y + 1) (x - 1)
  obtain ⟨w3, e3⟩ := ErrPlane.toErrors_addIf (G := y + 1 < H) w2 hb (by decide) (y + 1) x
  obtain ⟨_, e4⟩ := ErrPlane.toErrors_addIf (G := y + 1 < H ∧ x + 1 < W) w3 hbr (by decide) (y + 1) (x + 1)
  rw [ErrPlane.diffuse, ErrArray.diffuse, e4, e3, e2, e1]

/-! ## The reference scan -/

/-- Pixel (x, y) in row-major order is in row n / W and column n mod W. -/
theorem pixelIndex_mod {W x : Nat} (hx : x < W) (y : Nat) : (y * W + x) % W = x := Nat.mul_add_mod_of_lt hx

theorem pixelIndex_div {W x : Nat} (hx : x < W) (y : Nat) : (y * W + x) / W = y := by
  rw [Nat.mul_comm, Nat.mul_add_div (by omega), Nat.div_eq_of_lt hx, Nat.add_zero]

/-- R96: what Quantize answers for pixel (x, y), with the errors that the pixels before it have sent. -/
def scanQuantize (G : Nat → Nat → Nat) (W H x y : Nat) : Bool × Int :=
  quantize ((G y x : Int) + ErrArray.get (ditherScan G W H (y * W + x)).errors y x)

/-- The scan's step at pixel (x, y) diffuses the error and appends the colour (R96). -/
theorem ditherScan_pixel (G : Nat → Nat → Nat) {W x : Nat} (H : Nat) (hx : x < W) (y : Nat) :
    ditherScan G W H (y * W + x + 1)
      = { errors := ErrArray.diffuse (ditherScan G W H (y * W + x)).errors W H x y (scanQuantize G W H x y).2
          pixels := (ditherScan G W H (y * W + x)).pixels ++ [(scanQuantize G W H x y).1] } := by
  rw [ditherScan, pixelIndex_mod hx, pixelIndex_div hx]
  rfl

theorem ditherScan_pixels_length (G : Nat → Nat → Nat) (W H n : Nat) : (ditherScan G W H n).pixels.length = n := by
  induction n with
  | zero => rfl
  | succ n ih => simp [ditherScan, ditherPixel, ih]

/-- The scan never changes a pixel it has quantised. -/
theorem ditherScan_pixels_stable (G : Nat → Nat → Nat) (W H : Nat) {k n : Nat} (hk : k < n) (m : Nat) :
    (ditherScan G W H (n + m)).pixels.getD k false = (ditherScan G W H n).pixels.getD k false := by
  induction m with
  | zero => rfl
  | succ m ih =>
    rw [← ih]
    exact List.getD_append _ _ _ _ (by rw [ditherScan_pixels_length, Nat.add_eq]; omega)

/-- A pixel of DitherFrame is what the scan quantises there (R96). -/
theorem ditherFrame_eq_scanQuantize (G : Nat → Nat → Nat) {W H x y : Nat} (hx : x < W) (hy : y < H) :
    ditherFrame G W H y x = (scanQuantize G W H x y).1 := by
  have hlt := pixelIndex_lt hx hy
  obtain ⟨m, hm⟩ := Nat.exists_eq_add_of_le (Nat.succ_le_of_lt hlt)
  rw [ditherFrame, hm, ditherScan_pixels_stable G W H (Nat.lt_succ_self _), Nat.succ_eq_add_one,
    ditherScan_pixel G H hx]
  dsimp only
  rw [List.getD_append_right _ _ _ _ (by rw [ditherScan_pixels_length]), ditherScan_pixels_length, Nat.sub_self]
  rfl

/-! ## The packer's byte -/

/-- The byte that holds the bits of lanes 0 to n - 1 of f, packed one by one as R103 does. -/
def laneByte (f : Nat → BitVec 1) : Nat → Byte
  | 0 => 0
  | n + 1 => shiftIn (laneByte f n) n (f n)

/-- Eight bits packed one by one are the byte with lane 0 as its top bit (R100). -/
theorem laneByte_eight (f : Nat → BitVec 1) :
    laneByte f 8 = f 0 ++ f 1 ++ f 2 ++ f 3 ++ f 4 ++ f 5 ++ f 6 ++ f 7 := by
  simp only [laneByte]
  generalize f 0 = b0, f 1 = b1, f 2 = b2, f 3 = b3, f 4 = b4, f 5 = b5, f 6 = b6, f 7 = b7
  revert b0 b1 b2 b3 b4 b5 b6 b7
  decide

/-- Lanes without a bit leave the byte as it is (R104). -/
theorem laneByte_of_zero {f : Nat → BitVec 1} {n m : Nat} (hnm : n ≤ m) (h : ∀ L, n ≤ L → L < m → f L = 0) :
    laneByte f m = laneByte f n := by
  induction m, hnm using Nat.le_induction with
  | base => rfl
  | succ m hm ih => simp [laneByte, shiftIn, h m hm (Nat.lt_succ_self m), ih fun L hL hLm => h L hL (by omega)]

/-- A byte of PackFrame, lane by lane (R109). -/
theorem packByte_eq_laneByte (ink : BitVec 1) (rowPad : Bool) (Bin : Nat → Nat → Bool) (W H i : Nat) :
    packByte ink rowPad Bin W H i = laneByte (packBit ink rowPad Bin W H i) 8 := (laneByte_eight _).symm

theorem packBit_of_pixel {ink : BitVec 1} {rowPad : Bool} {W H i L x y : Nat} (Bin : Nat → Nat → Bool)
    (h : pixelAt rowPad W H i L = some (x, y)) : packBit ink rowPad Bin W H i L = pixelBit ink (Bin y x) := by
  rw [packBit, h]

theorem packBit_of_no_pixel {ink : BitVec 1} {rowPad : Bool} {W H i L : Nat} (Bin : Nat → Nat → Bool)
    (h : pixelAt rowPad W H i L = none) : packBit ink rowPad Bin W H i L = 0 := by
  rw [packBit, h]

section Cursor

variable {s : State} (hj : JobInv s) (hy : s.cy.toNat < s.jh.toNat)
include hj hy

/-- The pixel under the cursor has the next lane of the byte under way (R100, R106). -/
theorem pixelAt_cursor : pixelAt s.params.rowPad s.jw.toNat s.jh.toNat (bytesWritten s) (packerCount s)
    = some (s.cx.toNat, s.cy.toNat) := by
  have hx := hj.cx_lt hy
  have hne : s.cy ≠ s.jh := fun h => by rw [h] at hy; omega
  cases hp : s.params.rowPad with
  | true =>
    have hbpr : s.jbpr.toNat = ceil8 s.jw.toNat := by simpa [hp, bytesPerRow] using hj.rowBytes
    have hlane : s.cx.toNat / 8 < ceil8 s.jw.toNat := by rw [ceil8_eq]; omega
    simp only [pixelAt, bytesWritten, packerCount, hp, if_true, hbpr, pixelIndex_mod hlane, pixelIndex_div hlane,
      Nat.div_add_mod]
    exact if_pos ⟨hx, hy⟩
  | false =>
    simp only [pixelAt, bytesWritten, packerCount, hp, Bool.false_eq_true, if_false, hne, Nat.div_add_mod,
      pixelIndex_mod hx, pixelIndex_div hx]
    exact if_pos (pixelIndex_lt hx hy)

/-- Where that pixel completes its byte, the lanes after it have no pixel (R103, R104). -/
theorem pixelAt_after_complete (hc : completesByte s = true) {L : Nat} (hL : packerCount s < L) (hL8 : L < 8) :
    pixelAt s.params.rowPad s.jw.toNat s.jh.toNat (bytesWritten s) L = none := by
  have hx := hj.cx_lt hy
  have hne : s.cy ≠ s.jh := fun h => by rw [h] at hy; omega
  simp only [completesByte, byteComplete, Bool.or_eq_true, decide_eq_true_eq] at hc
  have hlast := hc.resolve_left (by omega)
  cases hp : s.params.rowPad with
  | true =>
    have hbpr : s.jbpr.toNat = ceil8 s.jw.toNat := by simpa [hp, bytesPerRow] using hj.rowBytes
    have hlane : s.cx.toNat / 8 < ceil8 s.jw.toNat := by rw [ceil8_eq]; omega
    simp only [packerCount, hp, if_true, decide_eq_true_eq] at hL hlast
    simp only [pixelAt, bytesWritten, hp, if_true, hbpr, pixelIndex_mod hlane, pixelIndex_div hlane]
    exact if_neg (by omega)
  | false =>
    simp only [packerCount, hp, Bool.false_eq_true, if_false, hne, decide_eq_true_eq] at hL hlast
    simp only [pixelAt, bytesWritten, hp, Bool.false_eq_true, if_false, hne]
    exact if_neg (by omega)

end Cursor

/-- A job step on pixel (x, y) shifts the pixel's bit into the packer, and writes the byte where this completes it
(R75, R103). -/
theorem ditherPack_pack_cases (s : State) (x y : Nat) (p : Word) :
    (byteComplete s.params.rowPad s.jw.toNat s.jh.toNat (s.pkn + 1) x y = true
        ∧ (s.ditherPack x y p).pk = 0 ∧ (s.ditherPack x y p).pkn = 0
        ∧ (s.ditherPack x y p).out
          = Memory.write s.out (outAddr (byteIndex s.params.rowPad s.jw.toNat s.jbpr.toNat x y))
            (shiftIn s.pk s.pkn (pixelBit s.params.inkBit (quantize (s.accumulate x y (gray p))).1)))
      ∨ (byteComplete s.params.rowPad s.jw.toNat s.jh.toNat (s.pkn + 1) x y = false
        ∧ (s.ditherPack x y p).pk
          = shiftIn s.pk s.pkn (pixelBit s.params.inkBit (quantize (s.accumulate x y (gray p))).1)
        ∧ (s.ditherPack x y p).pkn = s.pkn + 1 ∧ (s.ditherPack x y p).out = s.out) := by
  unfold State.ditherPack
  generalize quantize (s.accumulate x y (gray p)) = q
  rcases State.pack_cases (s.diffuse x y q.2) x y q.1 with ⟨hc, h⟩ | ⟨hc, h⟩
  · exact .inl ⟨hc, by simp [h], by simp [h], by simp [h, outAddr]⟩
  · exact .inr ⟨hc, by simp [h], by simp [h], by simp [h]⟩

end Sys2Proof.Machine

namespace Sys2Proof.Safety
open Sys2Proof.Machine

/-! ## The steps of a running job -/

/-- t is s but for the fields a running job does not use: REJ, the dimension registers, the draws and the host. -/
def SameJob (s t : State) : Prop :=
  t = { s with rej := t.rej, imgW := t.imgW, imgH := t.imgH, draws := t.draws, prog := t.prog, turns := t.turns,
               vars := t.vars }

theorem SameJob.jobInv {s t : State} (h : SameJob s t) (hj : JobInv s) : JobInv t := by
  rw [h]
  exact hj.hostFields t.rej t.imgW t.imgH t.draws t.prog t.turns t.vars

/-- The index of the pixel under the cursor, in row-major order (R85): the number of pixels processed. -/
def cursorIndex (s : State) : Nat := s.cy.toNat * s.jw.toNat + s.cx.toNat

/-- The word p that the job step reads for its pixel, and the draws used after it: IMG's word, or a fresh draw where it
is unwritten (R42). -/
def ReadsPixel (s : State) (p : Word) (d : Nat) : Prop :=
  (s.imgWord (cursorIndex s) = some p ∧ d = s.draws)
    ∨ (s.imgWord (cursorIndex s) = none ∧ p = Config.freeWord s.draws ∧ d = s.draws + 1)

theorem exists_readsPixel (s : State) : ∃ p d, ReadsPixel s p d := by
  cases h : s.imgWord (cursorIndex s) with
  | some p => exact ⟨p, s.draws, .inl ⟨h, rfl⟩⟩
  | none => exact ⟨_, _, .inr ⟨h, rfl, rfl⟩⟩

theorem ReadsPixel.eq_of_written {s : State} {p w : Word} {d : Nat} (h : ReadsPixel s p d)
    (hw : s.imgWord (cursorIndex s) = some w) : p = w := by
  rcases h with ⟨hp, _⟩ | ⟨hn, _⟩
  · exact Option.some.inj (hp.symm.trans hw)
  · cases hn.symm.trans hw

/-- The job step is its stages on the word it reads (R75). -/
theorem jobStep_of_readsPixel {s : State} {p : Word} {d : Nat} (h : ReadsPixel s p d) :
    s.jobStep = { s with draws := d }.ditherPack s.cx.toNat s.cy.toNat p := by
  have hread : s.readImg (cursorIndex s) = (p, { s with draws := d }) := by
    rcases h with ⟨hp, rfl⟩ | ⟨hn, rfl, rfl⟩
    · exact State.readImg_of_written hp
    · exact State.readImg_of_unwritten hn
  rw [cursorIndex] at hread
  rw [State.jobStep, hread]

/-- Every step of a running job: a host access beside it, RESET, the job step on the pixel under the cursor, or the
completion step. -/
inductive BusyStep (s : State) : State → Prop
  | host (hm : mover s = .host) (t : State) (h : SameJob s t) : BusyStep s t
  | reset (hm : mover s = .host) (w : Word) (hw : nextCommand s = some w) (hd : decodeWord w = .ok .reset) (t : State)
      (h : t.jobState = .idle) : BusyStep s t
  | pixel (hm : mover s = .engine) (hy : s.cy.toNat < s.jh.toNat) (u : State) (h : SameJob s u) (p : Word)
      (hp : ∀ w, s.imgWord (cursorIndex s) = some w → p = w) : BusyStep s (u.ditherPack u.cx.toNat u.cy.toNat p)
  | finish (hm : mover s = .engine) (hy : s.cy = s.jh) (u : State) (h : SameJob s u) : BusyStep s u.complete

/-- While a job runs, a host step either is RESET or leaves the job alone (R53). -/
theorem busyStep_of_host {s t : State} (hb : s.busy) (hm : mover s = .host) (h : StepChange s t) : BusyStep s t := by
  cases h with
  | quiet | width | height => exact .host hm _ rfl
  | image _ a v rest ts =>
    rw [State.writeImg_of_busy (s := (s.setTurns ts).setProg rest) hb]
    exact .host hm _ rfl
  | pixel hm' | finish hm' => cases hm.symm.trans hm'
  | command _ w rest ts hp _ hc =>
    cases hc with
    | nop | rejected => exact .host hm _ rfl
    | refused hn | illegal hn | accepted hn => exact absurd hb hn
    | abandoned hd => exact .reset hm w (nextCommand_of_ctrl hm hp) hd _ rfl

theorem busyStep_of_engine {s t : State} (hb : s.busy) (hj : JobInv s) (hm : mover s = .engine)
    (h : EngineEffect (s.setTurns s.turns.tail) t) : BusyStep s t := by
  cases h with
  | idle hidle =>
    have hcy : s.cy.toNat ≤ s.jh.toNat := by
      rcases hj.cursor with ⟨h, _⟩ | ⟨h, _⟩
      · omega
      · rw [h]
    exact absurd hidle (by simp [hb]; omega)
  | pixel _ hy =>
    obtain ⟨p, d, hp⟩ := exists_readsPixel (s.setTurns s.turns.tail)
    rw [jobStep_of_readsPixel hp]
    exact .pixel hm hy { s with turns := s.turns.tail, draws := d } rfl p fun w hw => hp.eq_of_written hw
  | finish _ hy => exact .finish hm hy (s.setTurns s.turns.tail) rfl

/-- Every step of a running job is one of these (R53, R75, R76). -/
theorem busyStep {s t : State} (hb : s.busy) (hj : JobInv s) (h : step s = .next t) : BusyStep s t := by
  rcases step_effect h with ⟨hm, _⟩ | ⟨hm, he⟩
  · exact busyStep_of_host hb hm (step_change h)
  · exact busyStep_of_engine hb hj hm he

/-! ## The job of an accepted PROCESS -/

/-- A PROCESS that leaves DPP BUSY, where it was not, is accepted (R73). -/
theorem exec_process_accepted {s t : State} (hb : ¬ s.busy) (h : exec .process s = .next t) (ht : t.busy) :
    t = s.acceptJob s.imgW.toNat s.imgH.toNat (outputLength s.params.rowPad s.imgW.toNat s.imgH.toNat) ∧ JobInv t := by
  cases exec_process_effect h with
  | rejected hbusy => exact absurd hbusy hb
  | refused => cases ht
  | accepted _ hW hH hi ho => exact ⟨rfl, jobInv_acceptJob hW hH hi ho⟩

/-- PROCESS while not BUSY starts a job or is refused (R73). -/
theorem exec_process_state {s t : State} (hb : ¬ s.busy) (h : exec .process s = .next t) :
    t.jobState = .busy ∨ t.jobState = .error := by
  cases exec_process_effect h with
  | rejected hbusy => exact absurd hbusy hb
  | refused => exact .inr rfl
  | accepted => exact .inl rfl

/-- The job that a PROCESS accepted in s is running in u. -/
structure RunsJobOf (s u : State) : Prop where
  busy : u.busy
  inv : JobInv u
  params : u.params = s.params
  width : u.jw = s.imgW
  height : u.jh = s.imgH
  image : u.img = s.img

theorem runsJobOf_accepted {s t : State} (hb : ¬ s.busy) (h : exec .process s = .next t) (ht : t.busy) :
    RunsJobOf s t := by
  obtain ⟨rfl, hj⟩ := exec_process_accepted hb h ht
  exact ⟨rfl, hj, rfl, by simp, by simp, rfl⟩

theorem cursorIndex_accepted {s t : State} (hb : ¬ s.busy) (h : exec .process s = .next t) (ht : t.busy) :
    cursorIndex t = 0 := by
  obtain ⟨rfl, _⟩ := exec_process_accepted hb h ht
  simp [cursorIndex]

theorem SameJob.cursorIndex_eq {s t : State} (h : SameJob s t) : cursorIndex t = cursorIndex s := by
  rw [h]
  rfl

theorem SameJob.runsJobOf {s u v : State} (h : SameJob u v) (hr : RunsJobOf s u) : RunsJobOf s v := by
  have hj := h.jobInv hr.inv
  rw [h] at hj ⊢
  exact ⟨hr.busy, hj, hr.params, hr.width, hr.height, hr.image⟩

section DitherPack

variable {u : State} (p : Word) (hy : u.cy.toNat < u.jh.toNat)
include hy

theorem RunsJobOf.ditherPack {s : State} (hr : RunsJobOf s u) :
    RunsJobOf s (u.ditherPack u.cx.toNat u.cy.toNat p) :=
  ⟨by simpa using hr.busy, hr.inv.ditherPack hy p, by simpa using hr.params, by simpa using hr.width,
    by simpa using hr.height, by simpa using hr.image⟩

theorem JobInv.cursorIndex_ditherPack (hj : JobInv u) :
    cursorIndex (u.ditherPack u.cx.toNat u.cy.toNat p) = cursorIndex u + 1 :=
  (ditherPack_advanced p (hj.cx_lt hy) hy).index_eq

end DitherPack

/-- The cursor's index is below the number of the job's pixels, or is that number and the cursor past the last row. -/
theorem JobInv.cursorIndex_cases {s : State} (hj : JobInv s) :
    (s.cy.toNat < s.jh.toNat ∧ cursorIndex s < s.jw.toNat * s.jh.toNat)
      ∨ (s.cy = s.jh ∧ cursorIndex s = s.jw.toNat * s.jh.toNat) := by
  rcases hj.cursor with ⟨hy, hx⟩ | ⟨hy, hx⟩
  · exact .inl ⟨hy, pixelIndex_lt hx hy⟩
  · exact .inr ⟨hy, by simp [cursorIndex, hy, hx, Nat.mul_comm]⟩

/-! ## A job follows the reference frame -/

/-- R77: the dithered raster of the image I, with the latched dimensions. -/
def jobRaster (I : Nat → Word) (s : State) : Nat → Nat → Bool :=
  ditherFrame (grayFrame I s.jw.toNat) s.jw.toNat s.jh.toNat

/-- R109: the bits of the frame's byte i, by lane. -/
def jobBits (I : Nat → Word) (s : State) (i : Nat) : Nat → BitVec 1 :=
  packBit s.params.inkBit s.params.rowPad (jobRaster I s) s.jw.toNat s.jh.toNat i

/-- A running job on the image I has done what R77's frame does up to the cursor: ERR is R96's error array, the bytes
written are the frame's, and the packer holds the first bits of the next one. -/
structure TracksFrame (I : Nat → Word) (s : State) : Prop where
  errors : ErrPlane.toErrors s.errPlane
    = (ditherScan (grayFrame I s.jw.toNat) s.jw.toNat s.jh.toNat (cursorIndex s)).errors
  packer : s.pk = laneByte (jobBits I s (bytesWritten s)) s.pkn
  bytes : ∀ i < bytesWritten s, s.outByte i = some (laneByte (jobBits I s i) 8)

theorem SameJob.tracksFrame {I : Nat → Word} {s t : State} (h : SameJob s t) (ht : TracksFrame I s) :
    TracksFrame I t := by
  rw [h]
  exact ⟨ht.errors, ht.packer, ht.bytes⟩

/-- An accepted job has done nothing yet (R73, R86). -/
theorem tracksFrame_accepted (I : Nat → Word) {s t : State} (hb : ¬ s.busy) (h : exec .process s = .next t)
    (ht : t.busy) : TracksFrame I t := by
  have hindex := cursorIndex_accepted hb h ht
  obtain ⟨rfl, hj⟩ := exec_process_accepted hb h ht
  have hbytes : bytesWritten (s.acceptJob s.imgW.toNat s.imgH.toNat
      (outputLength s.params.rowPad s.imgW.toNat s.imgH.toNat)) = 0 := by
    have hne : 0#16 ≠ s.imgH := fun h0 => by simpa [← h0] using hj.height
    simp [bytesWritten, hne]
  refine ⟨?_, rfl, fun i hi => by omega⟩
  rw [hindex, State.acceptJob_errPlane, ErrPlane.toErrors_zero]
  simp [ditherScan]

section Step

variable {I : Nat → Word} {s : State}

/-- The job quantises its pixel as the reference scan does (R87, R96). -/
theorem TracksFrame.quantize_eq (ht : TracksFrame I s) :
    quantize (s.accumulate s.cx.toNat s.cy.toNat (gray (I (cursorIndex s))))
      = scanQuantize (grayFrame I s.jw.toNat) s.jw.toNat s.jh.toNat s.cx.toNat s.cy.toNat := by
  have herrors := ht.errors
  unfold cursorIndex at herrors ⊢
  rw [State.accumulate, scanQuantize, ← herrors, ErrPlane.get_toErrors]
  rfl

/-- A byte that is complete has no bits in the lanes after its last pixel's (R104). -/
theorem laneByte_of_complete (hj : JobInv s) (hy : s.cy.toNat < s.jh.toNat) (hc : completesByte s = true) :
    laneByte (jobBits I s (bytesWritten s)) (s.pkn + 1) = laneByte (jobBits I s (bytesWritten s)) 8 :=
  (laneByte_of_zero hj.pkn_lt fun L hL hL8 =>
    packBit_of_no_pixel _ (pixelAt_after_complete hj hy hc (by rw [← hj.packed]; omega) hL8)).symm

variable (ht : TracksFrame I s) (hj : JobInv s) (hy : s.cy.toNat < s.jh.toNat)
include ht hj hy

/-- The bit the job packs is the frame's bit of the pixel, in the next lane (R102, R103). -/
theorem TracksFrame.shiftIn_eq :
    shiftIn s.pk s.pkn
        (pixelBit s.params.inkBit (quantize (s.accumulate s.cx.toNat s.cy.toNat (gray (I (cursorIndex s))))).1)
      = laneByte (jobBits I s (bytesWritten s)) (s.pkn + 1) := by
  have hbit := packBit_of_pixel (ink := s.params.inkBit) (jobRaster I s) (pixelAt_cursor hj hy)
  rw [jobRaster, ditherFrame_eq_scanQuantize _ (hj.cx_lt hy) hy, ← ht.quantize_eq, ← hj.packed] at hbit
  rw [laneByte, ← ht.packer, ← hbit]
  rfl

/-- What a job step that reads the image's word does to the packer and to OUT, in terms of the frame. -/
theorem TracksFrame.pack_cases {t : State} (h : t = s.ditherPack s.cx.toNat s.cy.toNat (I (cursorIndex s))) :
    (completesByte s = true ∧ t.pk = 0 ∧ t.pkn = 0
        ∧ t.out = Memory.write s.out (outAddr (bytesWritten s)) (laneByte (jobBits I s (bytesWritten s)) 8))
      ∨ (completesByte s = false ∧ t.pk = laneByte (jobBits I s (bytesWritten s)) (s.pkn + 1) ∧ t.pkn = s.pkn + 1
        ∧ t.out = s.out) := by
  subst h
  have hpack := ditherPack_pack_cases s s.cx.toNat s.cy.toNat (I (cursorIndex s))
  have hc : completesByte s
      = byteComplete s.params.rowPad s.jw.toNat s.jh.toNat (s.pkn + 1) s.cx.toNat s.cy.toNat := by
    rw [completesByte, hj.packed]
  rw [byteIndex_eq_bytesWritten hy, ht.shiftIn_eq hj hy, ← hc] at hpack
  refine hpack.imp_left fun ⟨hcomplete, hpk, hpkn, hout⟩ => ⟨hcomplete, hpk, hpkn, ?_⟩
  rw [hout, laneByte_of_complete hj hy hcomplete]

/-- A job step that reads the image's word goes on along the frame (R75, R77). -/
theorem TracksFrame.ditherPack {p : Word} (hp : I (cursorIndex s) = p) :
    TracksFrame I (s.ditherPack s.cx.toNat s.cy.toNat p) := by
  subst hp
  generalize ht' : s.ditherPack s.cx.toNat s.cy.toNat (I (cursorIndex s)) = t
  have hx := hj.cx_lt hy
  have hv := hj.accumulate_bounds s.cx.toNat s.cy.toNat (gray (I (cursorIndex s)))
  have he := quantize_error_bounds (v := s.accumulate s.cx.toNat s.cy.toNat (gray (I (cursorIndex s)))) (by omega)
  have ha : Advanced s t := ht' ▸ ditherPack_advanced _ hx hy
  have hindex : cursorIndex t = cursorIndex s + 1 := ha.index_eq
  have hcount := ha.bytesWritten_eq hj hx hy
  have hbits : jobBits I t = jobBits I s := by
    funext i
    rw [jobBits, jobRaster, ha.params, ha.jw, ha.jh]
    rfl
  have hpack := ht.pack_cases hj hy ht'.symm
  refine ⟨?_, ?_, fun i hi => ?_⟩
  · rw [hindex, ha.jw, ha.jh, ← ht', ditherPack_errPlane, ErrPlane.toErrors_diffuse hj.entry_bounds he, ht.errors,
      ht.quantize_eq, cursorIndex, ditherScan_pixel _ _ hx]
  · rw [hbits, hcount]
    rcases hpack with ⟨hc, hpk, hpkn, _⟩ | ⟨hc, hpk, hpkn, _⟩ <;> rw [hpk, hpkn, hc]
    · rfl
    · rfl
  · rw [hbits, State.outByte]
    rw [hcount] at hi
    rcases hpack with ⟨hc, _, _, hout⟩ | ⟨hc, _, _, hout⟩ <;> rw [hc] at hi <;> rw [hout]
    · by_cases hlast : i = bytesWritten s
      · rw [hlast, Memory.read_write_same]
      · rw [Memory.read_write_other _ _ (by unfold outAddr; omega)]
        exact ht.bytes i (by simp at hi; omega)
    · exact ht.bytes i hi

end Step

/-! ## The end of a job -/

/-- R77: t holds in OUT the frame of the image I that the job accepted in s had to leave there. -/
def LeavesFrame (s : State) (I : Nat → Word) (t : State) : Prop :=
  t.outputStream = some (frameBytes s.params.inkBit s.params.rowPad I s.imgW.toNat s.imgH.toNat)
    ∧ t.outLen.toNat = outputLength s.params.rowPad s.imgW.toNat s.imgH.toNat

/-- Looking up every item of a list succeeds where each does. -/
theorem mapM_eq_some_map {α β : Type} {f : α → Option β} {g : α → β} {l : List α} (h : ∀ a ∈ l, f a = some (g a)) :
    l.mapM f = some (l.map g) := by
  induction l with
  | nil => rfl
  | cons a l ih =>
    rw [List.mapM_cons, h a List.mem_cons_self, ih fun b hb => h b (List.mem_cons_of_mem a hb)]
    rfl

/-- R76, R77: with every pixel processed along the frame, completion leaves the whole frame. -/
theorem RunsJobOf.complete_leavesFrame {s u : State} {I : Nat → Word} (hr : RunsJobOf s u) (ht : TracksFrame I u)
    (hy : u.cy = u.jh) : LeavesFrame s I u.complete := by
  have hlen := hr.inv.length
  have hend := hr.inv.bytesWritten_end hy
  have hbytes : (List.range u.jlen.toNat).mapM u.complete.outByte
      = some ((List.range u.jlen.toNat).map
          (packByte u.params.inkBit u.params.rowPad (jobRaster I u) u.jw.toNat u.jh.toNat)) :=
    mapM_eq_some_map fun i hi => by
      rw [packByte_eq_laneByte]
      exact ht.bytes i (by rw [hend]; exact List.mem_range.1 hi)
  rw [LeavesFrame, ← hr.params, ← hr.width, ← hr.height]
  refine ⟨?_, hlen⟩
  rw [State.outputStream, State.complete_jobState, if_pos rfl, State.complete_outLen, hbytes, hlen]
  rfl

/-- The job accepted in s, running in u, leaves a frame in t, whatever words it has still to read: for some words J that
agree with IMG, every image that has them from the cursor on, and whose frame the job has followed so far. -/
def WillLeaveFrame (s u t : State) : Prop :=
  ∃ J : Nat → Word, (∀ n w, s.imgWord n = some w → J n = w)
    ∧ ∀ I : Nat → Word, (∀ n, cursorIndex u ≤ n → I n = J n) → TracksFrame I u → LeavesFrame s I t

theorem RunsJobOf.imgWord_eq {s u : State} (hr : RunsJobOf s u) (n : Nat) : u.imgWord n = s.imgWord n := by
  rw [State.imgWord, State.imgWord, hr.image]

/-- Nothing but the completion step ends a job in DONE, with the frame of IMG where that is written (R76). -/
theorem RunsJobOf.willLeaveFrame_of_done {s u t : State} (hr : RunsJobOf s u) (h : step u = .next t)
    (hd : t.jobState = .done) : WillLeaveFrame s u t := by
  cases busyStep hr.busy hr.inv h with
  | host _ _ hu =>
    have hb := (hu.runsJobOf hr).busy
    rw [State.busy_iff, hd] at hb
    cases hb
  | reset _ w _ _ _ hi => cases hi.symm.trans hd
  | pixel _ hy v hv p =>
    have hb := (hv.runsJobOf hr).busy
    rw [State.ditherPack_jobState, State.busy_iff.1 hb] at hd
    cases hd
  | finish _ hy v hv =>
    exact ⟨fun n => (s.imgWord n).getD 0, fun n w hw => by simp [hw],
      fun I _ ht => (hv.runsJobOf hr).complete_leavesFrame (hv.tracksFrame ht) (by rw [hv]; exact hy)⟩

/-- A step that stays BUSY is still in the same job. -/
theorem RunsJobOf.step_busy {s u v : State} (hr : RunsJobOf s u) (h : step u = .next v) (hb : v.busy) :
    RunsJobOf s v := by
  cases busyStep hr.busy hr.inv h with
  | host _ _ hu => exact hu.runsJobOf hr
  | reset _ w _ _ _ hi => simp [State.busy, hi] at hb
  | pixel _ hy v hv p => exact (hv.runsJobOf hr).ditherPack p (by rw [hv]; exact hy)
  | finish => cases hb

/-- A step of the job reads its pixel's word and goes on along the frame of the images that have it. -/
theorem RunsJobOf.willLeaveFrame_of_step {s u v t : State} (hr : RunsJobOf s u) (h : step u = .next v) (hb : v.busy)
    (hv : WillLeaveFrame s v t) : WillLeaveFrame s u t := by
  obtain ⟨J, hJ, hframe⟩ := hv
  cases busyStep hr.busy hr.inv h with
  | host _ _ hu =>
    exact ⟨J, hJ, fun I hI ht => hframe I (by rwa [hu.cursorIndex_eq]) (hu.tracksFrame ht)⟩
  | reset _ w _ _ _ hi => simp [State.busy, hi] at hb
  | finish => cases hb
  | pixel _ hy v hv p hp =>
    have hr' := hv.runsJobOf hr
    have hy' : v.cy.toNat < v.jh.toNat := by rw [hv]; exact hy
    refine ⟨Function.update J (cursorIndex u) p, fun n w hw => ?_, fun I hI ht => ?_⟩
    · by_cases hn : n = cursorIndex u
      · subst hn
        rw [Function.update_self]
        exact hp w (by rwa [hr.imgWord_eq])
      · rw [Function.update_of_ne hn]
        exact hJ n w hw
    · refine hframe I (fun n hn => ?_) ((hv.tracksFrame ht).ditherPack hr'.inv hy' ?_)
      · rw [hr'.inv.cursorIndex_ditherPack p hy', hv.cursorIndex_eq] at hn
        rw [hI n (by omega), Function.update_of_ne (by omega)]
      · rw [hv.cursorIndex_eq, hI _ (Nat.le_refl _), Function.update_self]

/-- The first step of a run that stays BUSY up to its end: the rest is such a run, from a BUSY state or from the end. -/
theorem busyRun_succ {s t : State} {k : Nat} (hbusy : ∀ j < k + 1, ∃ u, run j s = .next u ∧ u.busy)
    (h : run (k + 1) s = .next t) :
    ∃ v, step s = .next v ∧ run k v = .next t ∧ (∀ j < k, ∃ u, run j v = .next u ∧ u.busy)
      ∧ (v.busy ∨ v = t) := by
  cases hs : step s with
  | next v =>
    rw [run_succ k hs] at h
    have hrest : ∀ j < k, ∃ u, run j v = .next u ∧ u.busy :=
      fun j hj => by simpa only [run_succ j hs] using hbusy (j + 1) (by omega)
    refine ⟨v, rfl, h, hrest, ?_⟩
    cases k with
    | zero =>
      cases h
      exact .inr rfl
    | succ k =>
      obtain ⟨u, hu, hb⟩ := hrest 0 (by omega)
      cases hu
      exact .inl hb
  | fault f => simp [run, hs] at h
  | refused r => simp [run, hs] at h

/-- From any state of the job, whatever is interleaved, the run to DONE leaves a frame (R77). -/
theorem RunsJobOf.willLeaveFrame {s t : State} (hd : t.jobState = .done) (k : Nat) : ∀ u, RunsJobOf s u →
    (∀ j < k, ∃ v, run j u = .next v ∧ v.busy) → run k u = .next t → WillLeaveFrame s u t := by
  induction k with
  | zero =>
    rintro u hr _ ⟨⟩
    cases (State.busy_iff.1 hr.busy).symm.trans hd
  | succ k ih =>
    intro u hr hbusy h
    obtain ⟨v, hv, hrun, hrest, hb | rfl⟩ := busyRun_succ hbusy h
    · exact hr.willLeaveFrame_of_step hv hb (ih v (hr.step_busy hv hb) hrest hrun)
    · exact hr.willLeaveFrame_of_done hv hd

/-- Settles O53: the job follows the frame of the words it reads, from its acceptance to the completion step. -/
theorem jobComputesReferenceFrame : Obligations.JobComputesReferenceFrame := by
  intro s s1 t k hb h hbusy hrun hd
  have h1 : s1.busy := by
    cases k with
    | zero =>
      cases hrun
      rcases exec_process_state hb h with hs | hs <;> cases hs.symm.trans hd
    | succ k =>
      obtain ⟨u, hu, hub⟩ := hbusy 0 (by omega)
      cases hu
      exact hub
  obtain ⟨J, hJ, hframe⟩ := (runsJobOf_accepted hb h h1).willLeaveFrame hd k s1 hbusy hrun
  exact ⟨J, fun n w _ => hJ n w, hframe J (fun _ _ => rfl) (tracksFrame_accepted J hb h h1)⟩

end Sys2Proof.Safety

namespace Sys2Proof.Machine
open Sys2Proof.Safety

/-! ## The engine's moves -/

/-- The engine's move uses up no further turn. -/
theorem EngineEffect.turns {s t : State} (h : EngineEffect s t) : t.turns = s.turns := by
  cases h <;> simp

theorem step_of_engine {s : State} (hm : mover s = .engine) :
    ∃ t, step s = .next t ∧ EngineEffect (s.setTurns s.turns.tail) t := by
  rw [step_eq, hm]
  exact engineMove_effect _

theorem engineMove_of_pixel {s : State} (hb : s.busy) (hy : s.cy.toNat < s.jh.toNat) :
    engineMove s = .next s.jobStep := by
  rw [engineMove, if_pos hb, if_pos hy]

theorem engineMove_of_end {s : State} (hb : s.busy) (hy : s.cy = s.jh) : engineMove s = .next s.complete := by
  rw [engineMove, if_pos hb, if_neg (by rw [hy]; omega), if_pos hy]

theorem byteComplete_iff {rowPad : Bool} {W H n x y : Nat} : byteComplete rowPad W H n x y = true
    ↔ n = 8 ∨ (if rowPad then x + 1 = W else y * W + x + 1 = W * H) := by
  cases rowPad <;> simp [byteComplete]

theorem byteIndex_eq (rowPad : Bool) (W bpr x y : Nat) :
    byteIndex rowPad W bpr x y = if rowPad then y * bpr + x / 8 else (y * W + x) / 8 := by
  simp [byteIndex, Nat.shiftRight_eq_div_pow]

/-- The fields that the stages of a job step write (R75). -/
theorem ditherPack_frame (s : State) (x y : Nat) (p : Word) :
    let t := s.ditherPack x y p
    t = { s with errPlane := t.errPlane, pk := t.pk, pkn := t.pkn, out := t.out, cy := t.cy, cx := t.cx } := by
  unfold State.ditherPack State.advance
  generalize quantize (s.accumulate x y (gray p)) = q
  rcases State.pack_cases (s.diffuse x y q.2) x y q.1 with ⟨_, h⟩ | ⟨_, h⟩ <;> simp only [h] <;> split <;>
    simp only [State.setCursor, State.setPacker, State.writeOut, State.diffuse]

/-- A byte of OUT is read at its own window address (R37, R43). -/
theorem memByte_outBase (s : State) (i : Nat) :
    s.memByte (Config.outBase + i) = Memory.read s.out (Config.outBase + i) :=
  if_neg (by omega)

/-- Storing byte i of OUT leaves every other byte of memory alone. -/
theorem memByte_write_other {s t : State} {i a : Nat} {b : Byte} (himg : t.img = s.img)
    (hout : t.out = Memory.write s.out (outAddr i) b) (ha : a ≠ outAddr i) : t.memByte a = s.memByte a := by
  rw [State.memByte, State.memByte, himg, hout, Memory.read_write_other _ _ ha]

/-- Settles O45: the step is the stages of `ditherPack` on the word read, each with its own effect. -/
theorem jobStepEffect : Obligations.JobStepEffect := by
  intro s p d y x W H v bit pk last i hb hy hx (hread : ReadsPixel s p d)
  have hq : quantize (s.accumulate x y (gray p)) = (decide (128 ≤ v), if 128 ≤ v then v - 255 else v) := quantize_eq v
  have hbit : pixelBit s.params.inkBit (quantize (s.accumulate x y (gray p))).1 = bit := by
    simp [hq, pixelBit, bit]
  have hlast : byteComplete s.params.rowPad W H (s.pkn + 1) x y = true ↔ last := byteComplete_iff
  have hindex : byteIndex s.params.rowPad W s.jbpr.toNat x y = i := byteIndex_eq ..
  have hacc : { s with draws := d }.accumulate x y (gray p) = s.accumulate x y (gray p) := rfl
  have hpack := ditherPack_pack_cases { s with draws := d } x y p
  have hcursor := (ditherPack_advanced (s := { s with draws := d }) p hx hy).cursor
  have herr := ditherPack_errPlane (s := { s with draws := d }) p x y
  have himg := State.ditherPack_img { s with draws := d } x y p
  have hframe := ditherPack_frame { s with draws := d } x y p
  dsimp only at hpack herr
  rw [hacc, hbit, hindex] at hpack
  rw [hacc, hq] at herr
  generalize ht : { s with draws := d }.ditherPack x y p = t at *
  refine ⟨t, ?_, ?_, fun h => ?_, fun h => ?_, fun h => ?_, fun h => ?_, hframe⟩
  · rw [engineMove_of_pixel hb hy, jobStep_of_readsPixel hread, ← ht]
  · exact herr
  · obtain ⟨_, hpk, hpkn, hout⟩ | ⟨hc, _⟩ := hpack
    · refine ⟨hpk, hpkn, ?_, fun a ha => memByte_write_other himg hout ha⟩
      exact (memByte_outBase t i).trans (by rw [hout]; exact Memory.read_write_same ..)
    · cases hc.symm.trans (hlast.2 h)
  · obtain ⟨hc, _⟩ | ⟨_, hpk, hpkn, hout⟩ := hpack
    · exact absurd (hlast.1 hc) h
    · exact ⟨hpk, hpkn, memByte_congr himg hout⟩
  · obtain ⟨_, hcy, hcx⟩ | ⟨hend, _⟩ := hcursor
    · exact ⟨hcy, hcx⟩
    · exact absurd hend (Nat.ne_of_lt h)
  · obtain ⟨hlt, _⟩ | ⟨_, hcy, hcx⟩ := hcursor
    · exact absurd h (Nat.ne_of_lt hlt)
    · exact ⟨hcy, hcx⟩

/-- Settles O46: the engine's move at the end of the image is `complete`, and the invariant lists every byte by then. -/
theorem completionStep : Obligations.CompletionStep := by
  intro s hb hy
  refine ⟨engineMove_of_end hb hy, engineMove_of_not_busy (s := s.complete) (by simp), fun hi j hj => ?_⟩
  have hjob := hi.job (State.busy_iff.1 hb)
  exact hjob.written j (by rwa [hjob.bytesWritten_end hy])

end Sys2Proof.Machine

namespace Sys2Proof.Safety
open Sys2Proof.Machine

/-! ## How many steps a job takes -/

/-- A step of the job moves the cursor one pixel on, a host access not at all (R75). -/
theorem RunsJobOf.cursorIndex_step {s u v : State} (hr : RunsJobOf s u) (h : step u = .next v) (hb : v.busy) :
    cursorIndex v = (if mover u = .engine then 1 else 0) + cursorIndex u := by
  cases busyStep hr.busy hr.inv h with
  | host hm _ hu => simp [hm, hu.cursorIndex_eq]
  | reset _ w _ _ _ hi => simp [State.busy, hi] at hb
  | finish => cases hb
  | pixel hm hy w hw p =>
    rw [(hw.jobInv hr.inv).cursorIndex_ditherPack p (by rw [hw]; exact hy), hw.cursorIndex_eq, hm, if_pos rfl,
      Nat.add_comm]

/-- While a job stays BUSY, its cursor counts the engine's turns (R78). -/
theorem RunsJobOf.cursorIndex_run {s v : State} (hv : v.busy) (k : Nat) : ∀ u, RunsJobOf s u →
    (∀ j < k, ∃ w, run j u = .next w ∧ w.busy) → run k u = .next v →
    RunsJobOf s v ∧ cursorIndex v = engineTurns k u + cursorIndex u := by
  induction k with
  | zero =>
    rintro u hr _ ⟨⟩
    exact ⟨hr, (Nat.zero_add _).symm⟩
  | succ k ih =>
    intro u hr hbusy h
    obtain ⟨w, hw, hrun, hrest, hb⟩ := busyRun_succ hbusy h
    have hwb : w.busy := hb.elim id fun h => h ▸ hv
    obtain ⟨hrv, hindex⟩ := ih w (hr.step_busy hw hwb) hrest hrun
    refine ⟨hrv, ?_⟩
    rw [hindex, hr.cursorIndex_step hw hwb, engineTurns_succ k hw]
    omega

/-- The cursor's index is below the number of the image's pixels, or is that number and the cursor past the last row. -/
theorem RunsJobOf.cursorIndex_cases {s u : State} (hr : RunsJobOf s u) :
    (u.cy.toNat < u.jh.toNat ∧ cursorIndex u < s.imgW.toNat * s.imgH.toNat)
      ∨ (u.cy = u.jh ∧ cursorIndex u = s.imgW.toNat * s.imgH.toNat) := by
  rw [← hr.width, ← hr.height]
  exact hr.inv.cursorIndex_cases

/-- The engine's turn is a job step while a pixel is left, and then the completion step (R75, R76). -/
theorem RunsJobOf.engine_step {s u t : State} (hr : RunsJobOf s u) (hm : mover u = .engine) (h : step u = .next t) :
    (cursorIndex u < s.imgW.toNat * s.imgH.toNat ∧ t.busy)
      ∨ (cursorIndex u = s.imgW.toNat * s.imgH.toNat ∧ t.jobState = .done
        ∧ t.outLen.toNat = outputLength s.params.rowPad s.imgW.toNat s.imgH.toNat) := by
  cases busyStep hr.busy hr.inv h with
  | host hm' | reset hm' => cases hm.symm.trans hm'
  | pixel _ hy v hv p =>
    refine .inl ⟨?_, by simpa using (hv.runsJobOf hr).busy⟩
    rcases hr.cursorIndex_cases with ⟨_, hlt⟩ | ⟨hend, _⟩
    · exact hlt
    · rw [hend] at hy
      omega
  | finish _ hy v hv =>
    refine .inr ⟨?_, rfl, ?_⟩
    · rcases hr.cursorIndex_cases with ⟨hlt, _⟩ | ⟨_, heq⟩
      · rw [hy] at hlt
        omega
      · exact heq
    · have hr' := hv.runsJobOf hr
      rw [State.complete_outLen, hr'.inv.length, hr'.params, hr'.width, hr'.height]

/-- A host access other than RESET leaves the job BUSY (R53, R78). -/
theorem RunsJobOf.host_step {s u t : State} (hr : RunsJobOf s u) (hm : mover u = .host) (h : step u = .next t)
    (hreset : ∀ w, nextCommand u = some w → decodeWord w ≠ .ok .reset) : t.busy := by
  cases busyStep hr.busy hr.inv h with
  | host _ _ hu => exact (hu.runsJobOf hr).busy
  | reset _ w hw hd => exact absurd hd (hreset w hw)
  | pixel hm' | finish hm' => cases hm.symm.trans hm'

/-- With no turn laid down the engine moves at every step of the job, until every pixel is processed (log 2). -/
theorem RunsJobOf.run_alone {s s1 : State} (hr : RunsJobOf s s1) (hstart : cursorIndex s1 = 0)
    (hturns : s1.turns = []) : ∀ j ≤ s.imgW.toNat * s.imgH.toNat,
    ∃ u, run j s1 = .next u ∧ RunsJobOf s u ∧ u.turns = [] ∧ cursorIndex u = j := by
  intro j
  induction j with
  | zero => exact fun _ => ⟨s1, rfl, hr, hturns, hstart⟩
  | succ j ih =>
    intro hj
    obtain ⟨u, hu, hru, hut, hindex⟩ := ih (by omega)
    have hm := mover_of_busy hut hru.busy
    obtain ⟨t, ht, he⟩ := step_of_engine hm
    have hb : t.busy := by
      rcases hru.engine_step hm ht with ⟨_, hb⟩ | ⟨heq, _⟩
      · exact hb
      · omega
    refine ⟨t, by rw [run_add j 1 hu, run_succ 0 ht, run_zero], hru.step_busy ht hb, ?_, ?_⟩
    · rw [he.turns, State.setTurns_turns, hut, List.tail_nil]
    · rw [hru.cursorIndex_step ht hb, hm, if_pos rfl, hindex, Nat.add_comm]

theorem RunsJobOf.atEnd_iff {s u : State} (hr : RunsJobOf s u) :
    u.cy = u.jh ↔ cursorIndex u = s.imgW.toNat * s.imgH.toNat := by
  rcases hr.cursorIndex_cases with ⟨hlt, hne⟩ | ⟨hend, heq⟩
  · exact iff_of_false (fun h => by rw [h] at hlt; omega) (Nat.ne_of_lt hne)
  · exact iff_of_true hend heq

/-- Settles O54: the cursor counts the engine's turns, and where it stands says which step the next one is. -/
theorem jobTakesExactlyItsSteps : Obligations.JobTakesExactlyItsSteps := by
  refine ⟨fun s s1 u k hb h hbusy hrun => ?_, fun s s1 hb h h1 hturns => ?_⟩
  · have busyAt {j : Nat} {v : State} (hj : j ≤ k) (hv : run j s1 = .next v) : v.busy := by
      obtain ⟨w, hw, hwb⟩ := hbusy j hj
      cases hv.symm.trans hw
      exact hwb
    have h1 : s1.busy := busyAt (Nat.zero_le k) rfl
    obtain ⟨hr, hindex⟩ := (runsJobOf_accepted hb h h1).cursorIndex_run (busyAt (Nat.le_refl k) hrun) k s1
      (fun j hj => hbusy j (Nat.le_of_lt hj)) hrun
    rw [cursorIndex_accepted hb h h1, Nat.add_zero] at hindex
    dsimp only
    rw [← hindex]
    refine ⟨?_, rfl, hr.atEnd_iff, fun hm => ?_, fun hm t => hr.host_step hm⟩
    · rcases hr.cursorIndex_cases with ⟨_, h⟩ | ⟨_, h⟩ <;> omega
    · obtain ⟨t, ht, _⟩ := step_of_engine hm
      refine ⟨t, ht, ?_⟩
      rcases hr.engine_step hm ht with ⟨hlt, htb⟩ | ⟨heq, hdone⟩
      · exact ⟨fun _ => htb, fun heq => by omega⟩
      · exact ⟨fun hlt => by omega, fun _ => hdone⟩
  · have alone := (runsJobOf_accepted hb h h1).run_alone (cursorIndex_accepted hb h h1) hturns
    refine ⟨fun j hj => ?_, ?_⟩
    · obtain ⟨u, hu, hr, _, hindex⟩ := alone j hj
      exact ⟨u, hu, hr.busy, hindex ▸ hr.atEnd_iff⟩
    · obtain ⟨u, hu, hr, hut, hindex⟩ := alone _ (Nat.le_refl _)
      have hm := mover_of_busy hut hr.busy
      obtain ⟨t, ht, _⟩ := step_of_engine hm
      refine ⟨t, by rw [run_add _ 1 hu, run_succ 0 ht, run_zero], ?_⟩
      rcases hr.engine_step hm ht with ⟨hlt, _⟩ | ⟨_, hdone⟩
      · omega
      · exact hdone

end Sys2Proof.Safety

/-! SUPPORT. Proofs about step 1, grayscale reduction (spec 41_grayscale.md). -/

namespace Sys2Proof.Machine

/-! ## Grayscale reduction -/

/-- Gray is the high byte of the weighted sum (R79). -/
theorem gray_toNat_eq_graySum_div (p : Word) : (gray p).toNat = graySum p / 2 ^ 24 := gray_toNat p

/-- R83: the weights add up to 2^16, so the sum is largest for white. -/
theorem graySum_le (p : Word) : graySum p ≤ 4294934528 := by
  have hr := pixelR_lt p
  have hg := pixelG_lt p
  have hb := pixelB_lt p
  simp only [graySum, widen, Config.weightR, Config.weightG, Config.weightB]
  omega

theorem graySum_mono {p q : Word} (hr : pixelR p ≤ pixelR q) (hg : pixelG p ≤ pixelG q) (hb : pixelB p ≤ pixelB q) :
    graySum p ≤ graySum q := by
  unfold graySum widen
  gcongr

/-- R83: for a neutral pixel the rounding leaves the level as it is. -/
theorem gray_of_neutral {p : Word} {c : Byte} (hr : pixelR p = c.toNat) (hg : pixelG p = c.toNat)
    (hb : pixelB p = c.toNat) : gray p = c := by
  apply BitVec.eq_of_toNat_eq
  have hc := c.isLt
  rw [gray_toNat, hr, hg, hb]
  omega

/-- R79: Gray reads the three colour channels and nothing else. -/
theorem gray_congr {p q : Word} (hr : pixelR p = pixelR q) (hg : pixelG p = pixelG q) (hb : pixelB p = pixelB q) :
    gray p = gray q := by
  rw [gray, gray, graySum, graySum, hr, hg, hb]

/-! ## The channels of a joined pixel word (R64) -/

section Channels
variable (a : Byte) (rgb : BitVec 24) (b g r : Byte)

theorem pixelR_append : pixelR (a ++ rgb) = (rgb.extractLsb' 0 8).toNat :=
  congrArg BitVec.toNat (BitVec.extractLsb'_append_eq_of_add_le (by decide))

theorem pixelG_append : pixelG (a ++ rgb) = (rgb.extractLsb' 8 8).toNat :=
  congrArg BitVec.toNat (BitVec.extractLsb'_append_eq_of_add_le (by decide))

theorem pixelB_append : pixelB (a ++ rgb) = (rgb.extractLsb' 16 8).toNat :=
  congrArg BitVec.toNat (BitVec.extractLsb'_append_eq_of_add_le (by decide))

theorem pixelR_channels : pixelR (a ++ b ++ g ++ r) = r.toNat :=
  congrArg BitVec.toNat BitVec.extractLsb'_append_eq_right

theorem pixelG_channels : pixelG (a ++ b ++ g ++ r) = g.toNat :=
  congrArg BitVec.toNat ((extractLsb'_append_skip (start := 0) (a ++ b ++ g) r).trans BitVec.extractLsb'_append_eq_right)

theorem pixelB_channels : pixelB (a ++ b ++ g ++ r) = b.toNat :=
  congrArg BitVec.toNat ((extractLsb'_append_skip (start := 8) (a ++ b ++ g) r).trans
    ((extractLsb'_append_skip (start := 0) (a ++ b) g).trans BitVec.extractLsb'_append_eq_right))

end Channels

/-- Settles O34: the high byte of the weighted sum grows with each channel and keeps a neutral level. -/
theorem grayLaws : Obligations.GrayLaws := by
  refine ⟨fun p => ⟨Nat.zero_le _, Nat.le_of_lt_succ (gray p).isLt⟩, fun c a => ?_, fun p q hr hg hb => ?_,
    fun p => ⟨graySum_le p, by decide⟩⟩
  · exact gray_of_neutral (pixelR_channels a c c c) (pixelG_channels a c c c) (pixelB_channels a c c c)
  · rw [gray_toNat_eq_graySum_div, gray_toNat_eq_graySum_div]
    exact Nat.div_le_div_right (graySum_mono hr hg hb)

/-- Settles O35: the channels of both words are those of the colour they share. -/
theorem grayIgnoresAlpha : Obligations.GrayIgnoresAlpha := fun a a' rgb =>
  gray_congr ((pixelR_append a rgb).trans (pixelR_append a' rgb).symm)
    ((pixelG_append a rgb).trans (pixelG_append a' rgb).symm) ((pixelB_append a rgb).trans (pixelB_append a' rgb).symm)

end Sys2Proof.Machine

/-! SUPPORT. Proofs about step 2, error-diffusion dither (spec 42_dither.md). -/

namespace Sys2Proof.Machine

/-! ## Frames of the same image -/

/-- R85: pixel n of the scan is a pixel of the image. -/
theorem scanPixel_inside {W H n : Nat} (hn : n < W * H) : n / W < H ∧ n % W < W :=
  ⟨Nat.div_lt_of_lt_mul hn, Nat.mod_lt n (Nat.pos_of_mul_pos_right (Nat.zero_lt_of_lt hn))⟩

/-- The scan reads the gray values of the image and no other (R96). -/
theorem ditherScan_congr {G G' : Nat → Nat → Nat} {W H : Nat} (h : ∀ y x, y < H → x < W → G y x = G' y x) {n : Nat}
    (hn : n ≤ W * H) : ditherScan G W H n = ditherScan G' W H n := by
  induction n with
  | zero => rfl
  | succ n ih =>
    obtain ⟨hy, hx⟩ := scanPixel_inside hn
    rw [ditherScan, ditherScan, ih (Nat.le_of_succ_le hn), ditherPixel, ditherPixel, h _ _ hy hx]

theorem ditherFrame_congr {G G' : Nat → Nat → Nat} {W H : Nat} (h : ∀ y x, y < H → x < W → G y x = G' y x) :
    ditherFrame G W H = ditherFrame G' W H := by
  funext y x
  rw [ditherFrame, ditherFrame, ditherScan_congr h (Nat.le_refl _)]

/-- The bytes of a frame depend on the words of the image alone (R95). -/
theorem frameBytes_congr {I I' : Nat → Word} {W H : Nat} (h : ∀ n < W * H, I n = I' n) (ink : BitVec 1)
    (rowPad : Bool) : frameBytes ink rowPad I W H = frameBytes ink rowPad I' W H := by
  have hgray (y x : Nat) (hy : y < H) (hx : x < W) : grayFrame I W y x = grayFrame I' W y x := by
    rw [grayFrame, grayFrame, h _ (pixelIndex_lt hx hy)]
  rw [frameBytes, frameBytes, ditherFrame_congr hgray]

/-- Settles O56: both jobs leave the frame of R77, whose bytes the image's written words determine. -/
theorem outputDependsOnImageAlone : Obligations.OutputDependsOnImageAlone := by
  intro s s1 t s' s1' t' k k' hb hexec hbusy hrun hdone hb' hexec' hbusy' hrun' hdone' hW hH hink hpad himg
  obtain ⟨I, hI, hstream, _⟩ := Safety.jobComputesReferenceFrame s s1 t k hb hexec hbusy hrun hdone
  obtain ⟨I', hI', hstream', _⟩ := Safety.jobComputesReferenceFrame s' s1' t' k' hb' hexec' hbusy' hrun' hdone'
  rw [hW, hH] at hI' hstream'
  have hwords (n : Nat) (hn : n < s.imgW.toNat * s.imgH.toNat) : I' n = I n := by
    obtain ⟨hwritten, hsame⟩ := himg n hn
    obtain ⟨w, hw⟩ := Option.ne_none_iff_exists'.1 hwritten
    rw [hI n w hn hw, hI' n w hn (hsame.trans hw)]
  rw [hstream, hstream', hink, hpad, frameBytes_congr hwords]

/-! ## Shares -/

/-- R90: a share of an error that is not negative is rounded down. -/
theorem share_of_nonneg {k e : Int} (hk : 0 ≤ k) (he : 0 ≤ e) : share k e = k * e / 16 :=
  tdiv_of_nonneg (Int.mul_nonneg hk he) (by decide)

/-- R90: such a share is not negative, and loses less than 1. -/
theorem share_rounds_down {k e : Int} (hk : 0 ≤ k) (he : 0 ≤ e) :
    0 ≤ share k e ∧ 16 * share k e ≤ k * e ∧ k * e < 16 * share k e + 16 := by
  have hke := Int.mul_nonneg hk he
  rw [share_of_nonneg hk he]
  omega

/-- R90: of an error that is not negative the four shares together lose at most 3. -/
theorem share_sum_of_nonneg {e : Int} (he : 0 ≤ e) :
    0 ≤ share 7 e + share 3 e + share 5 e + share 1 e ∧ share 7 e + share 3 e + share 5 e + share 1 e ≤ e
      ∧ e ≤ share 7 e + share 3 e + share 5 e + share 1 e + 3 := by
  have h7 := share_rounds_down (k := 7) (by decide) he
  have h3 := share_rounds_down (k := 3) (by decide) he
  have h5 := share_rounds_down (k := 5) (by decide) he
  have h1 := share_rounds_down (k := 1) (by decide) he
  omega

/-- R90: the four shares sum to at most |e| and leave at most 3. -/
theorem share_sum_bounds (e : Int) :
    (share 7 e + share 3 e + share 5 e + share 1 e).natAbs ≤ e.natAbs
      ∧ (e - (share 7 e + share 3 e + share 5 e + share 1 e)).natAbs ≤ 3 := by
  rcases Int.le_total 0 e with he | he
  · have h := share_sum_of_nonneg he
    omega
  · have h := share_sum_of_nonneg (e := -e) (by omega)
    simp only [share_neg] at h
    omega

/-- Settles O37: division truncated toward zero, the sum by the sign of the error, and the table by evaluation. -/
theorem shareLaws : Obligations.ShareLaws :=
  ⟨fun _ _ => share_of_nonneg, share_neg, share_sum_bounds, by decide⟩

/-- Settles O38: the shares of R91 are those that `diffusedShare` lists. -/
theorem diffuseRule : Obligations.DiffuseRule := by
  intro p W H x y e hlen hrows hx hy hlo hhi hb
  obtain ⟨hlen', hrows'⟩ := ErrPlane.sized_diffuse ⟨hlen, hrows⟩ x y e
  exact ⟨hlen', hrows', fun _ _ => ErrPlane.get_diffuse ⟨hlen, hrows⟩ hx hy ⟨hlo, hhi⟩ hb⟩

/-! ## Images of pure levels -/

/-- R97: the two levels are their own quantised values. -/
theorem quantize_pure {g : Nat} (h : g = 0 ∨ g = 255) : quantize (g : Int) = (decide (g = 255), 0) := by
  rcases h with rfl | rfl <;> decide

theorem share_zero (k : Int) : share k 0 = 0 := by simp [share, tdiv]

/-- Replacing an item of a list by itself changes nothing. -/
theorem set_getD_self {α : Type} (l : List α) (i : Nat) (d : α) : l.set i (l.getD i d) = l := by
  by_cases hi : i < l.length
  · rw [List.getD_eq_getElem _ _ hi, List.set_getElem_self]
  · exact List.set_eq_of_length_le (by omega)

theorem ErrArray.add_zero (E : ErrArray) (y x : Nat) : ErrArray.add E y x 0 = E := by
  rw [ErrArray.add, ErrArray.get, Int.add_zero, set_getD_self, set_getD_self]

/-- R97: no error, no diffusion. -/
theorem ErrArray.diffuse_zero (E : ErrArray) (W H x y : Nat) : ErrArray.diffuse E W H x y 0 = E := by
  simp only [ErrArray.diffuse, share_zero, ErrArray.add_zero, ite_self]

theorem ErrArray.get_replicate_zero (W H y x : Nat) :
    ErrArray.get (List.replicate H (List.replicate W 0)) y x = 0 := by
  rw [← ErrPlane.toErrors_zero, ErrPlane.get_toErrors, ErrPlane.get_zero]
  exact BitVec.toInt_zero

section PureLevels

variable {G : Nat → Nat → Nat} {W H : Nat} (hG : ∀ y x, y < H → x < W → G y x = 0 ∨ G y x = 255)
include hG

/-- On an image of pure levels the scan never leaves an error (R97). -/
theorem ditherScan_errors_of_pure {n : Nat} (hn : n ≤ W * H) :
    (ditherScan G W H n).errors = List.replicate H (List.replicate W 0) := by
  induction n with
  | zero => rfl
  | succ n ih =>
    obtain ⟨hy, hx⟩ := scanPixel_inside hn
    rw [ditherScan, ditherPixel, ih (Nat.le_of_succ_le hn), ErrArray.get_replicate_zero, Int.add_zero,
      quantize_pure (hG _ _ hy hx)]
    exact ErrArray.diffuse_zero ..

/-- An image of pure levels dithers to its own thresholded raster (R97). -/
theorem ditherFrame_of_pure {y x : Nat} (hy : y < H) (hx : x < W) : ditherFrame G W H y x = decide (G y x = 255) := by
  rw [ditherFrame_eq_scanQuantize G hx hy, scanQuantize,
    ditherScan_errors_of_pure hG (Nat.le_of_lt (pixelIndex_lt hx hy)), ErrArray.get_replicate_zero, Int.add_zero,
    quantize_pure (hG y x hy hx)]

end PureLevels

/-- Settles O43: a pure level quantises to itself, so no pixel of the scan has an error to diffuse. -/
theorem pureLevelsPassUnchanged : Obligations.PureLevelsPassUnchanged :=
  ⟨quantize_pure (.inl rfl), quantize_pure (.inr rfl), fun _ _ _ hG =>
    ⟨fun _ _ => ditherFrame_of_pure hG, fun _ => ditherScan_errors_of_pure hG⟩⟩

/-! ## Bounds -/

/-- Settles O48: the job's invariant bounds every entry by 124, and so the accumulated value and its error. -/
theorem errorBounds : Obligations.ErrorBounds := by
  intro s hi hb
  have hj := hi.job (State.busy_iff.1 hb)
  refine ⟨fun y x _ _ => ?_, fun g _ => ?_⟩
  · have := hj.entry_bounds y x
    omega
  · obtain ⟨hlo, hhi⟩ := hj.accumulate_bounds s.cx.toNat s.cy.toNat g
    have hv : -127 ≤ s.accumulate s.cx.toNat s.cy.toNat g ∧ s.accumulate s.cx.toNat s.cy.toNat g ≤ 382 := by omega
    exact ⟨hv.1, hv.2, quantize_error_bounds hv⟩

/-- Settles O36: the colour and the error by `quantize_eq`, the bound by `quantize_error_bounds`. -/
theorem quantizeRule : Obligations.QuantizeRule := by
  intro v hlo hhi
  refine ⟨isWhite_iff v, ?_, quantize_error_bounds ⟨hlo, hhi⟩⟩
  rw [quantize_eq]
  split <;> simp

end Sys2Proof.Machine

/-! SUPPORT. Proofs about step 3, bit packing (spec 43_pack.md). -/

namespace Sys2Proof.Machine

/-! ## The output length -/

/-- R101: a width that is a multiple of 8 needs no padding, so both modes give the same length. -/
theorem outputLength_of_whole_bytes (rowPad : Bool) {W : Nat} (H : Nat) (hW : W % 8 = 0) :
    outputLength rowPad W H = W * H / 8 := by
  obtain ⟨c, rfl⟩ := Nat.dvd_of_mod_eq_zero hW
  rw [outputLength_eq, Nat.mul_assoc]
  cases rowPad with
  | true =>
    rw [if_pos rfl, show (8 * c + 7) / 8 = c by omega, Nat.mul_comm H]
    omega
  | false =>
    rw [if_neg Bool.false_ne_true]
    omega

/-- Settles O39: the ceiling as a division, and no padding where the width is a multiple of 8. -/
theorem outputLengthRule : Obligations.OutputLengthRule := fun W H =>
  ⟨outputLength_eq true W H, outputLength_eq false W H, bytesPerRow_eq true W, fun hW =>
    ⟨outputLength_of_whole_bytes true H hW, outputLength_of_whole_bytes false H hW⟩⟩

/-! ## The place of a pixel -/

/-- R100, R106: the lane of pixel (x, y) in its byte, 0 the first. -/
def pixelLane (rowPad : Bool) (W x y : Nat) : Nat := if rowPad then x % 8 else (y * W + x) % 8

theorem pixelLane_lt (rowPad : Bool) (W x y : Nat) : pixelLane rowPad W x y < 8 := by
  unfold pixelLane
  split <;> omega

section Place

variable (rowPad : Bool) {W H x y : Nat} (hx : x < W) (hy : y < H)
include hx hy

/-- The byte of a pixel is one of the frame's (R103). -/
theorem byteIndex_lt_outputLength : byteIndex rowPad W (ceil8 W) x y < outputLength rowPad W H := by
  rw [byteIndex_eq, outputLength_eq, ceil8_eq]
  cases rowPad with
  | true =>
    simp only [if_true, Nat.mul_comm H]
    exact pixelIndex_lt (by omega) hy
  | false =>
    have := pixelIndex_lt hx hy
    simp only [Bool.false_eq_true, if_false]
    omega

/-- The pixel that `pixelAt` finds at the byte and lane of (x, y) is (x, y) (R100, R106). -/
theorem pixelAt_byteIndex :
    pixelAt rowPad W H (byteIndex rowPad W (ceil8 W) x y) (pixelLane rowPad W x y) = some (x, y) := by
  rw [byteIndex_eq]
  cases rowPad with
  | true =>
    have hbyte : x / 8 < ceil8 W := by rw [ceil8_eq]; omega
    simp only [pixelAt, pixelLane, if_true, pixelIndex_mod hbyte, pixelIndex_div hbyte, Nat.div_add_mod]
    exact if_pos ⟨hx, hy⟩
  | false =>
    simp only [pixelAt, pixelLane, Bool.false_eq_true, if_false, Nat.div_add_mod, pixelIndex_mod hx,
      pixelIndex_div hx]
    exact if_pos (pixelIndex_lt hx hy)

end Place

/-- R104: with row padding, the lanes of a row's last byte from W mod 8 on have no pixel. -/
theorem pixelAt_rowPadding {W L : Nat} (H y : Nat) (hW : W % 8 ≠ 0) (hL : W % 8 ≤ L) :
    pixelAt true W H (y * ceil8 W + W / 8) L = none := by
  have hbyte : W / 8 < ceil8 W := by rw [ceil8_eq]; omega
  simp only [pixelAt, if_true, pixelIndex_mod hbyte]
  exact if_neg (by omega)

/-- R104: without, the lanes of the last byte from W*H mod 8 on have no pixel. -/
theorem pixelAt_imagePadding {W H L : Nat} (hL : W * H % 8 ≤ L) : pixelAt false W H (W * H / 8) L = none := by
  simp only [pixelAt, Bool.false_eq_true, if_false]
  exact if_neg (by omega)

/-- R106: for a width that is a multiple of 8 both modes have the same pixel at every lane of every byte. -/
theorem pixelAt_of_whole_bytes {W L : Nat} (H i : Nat) (hW : W % 8 = 0) (hL : L < 8) :
    pixelAt true W H i L = pixelAt false W H i L := by
  obtain ⟨c, rfl⟩ := Nat.dvd_of_mod_eq_zero hW
  have hceil : ceil8 (8 * c) = c := by rw [ceil8_eq]; omega
  simp only [pixelAt, if_true, Bool.false_eq_true, if_false, hceil]
  rcases Nat.eq_zero_or_pos c with rfl | hc
  · simp
  · have hx : 8 * (i % c) + L < 8 * c := by have := Nat.mod_lt i hc; omega
    have hindex : 8 * i + L = i / c * (8 * c) + (8 * (i % c) + L) := by
      conv_lhs => rw [← Nat.div_add_mod i c]
      ring
    have hcol : (8 * i + L) % (8 * c) = 8 * (i % c) + L := by rw [hindex, pixelIndex_mod hx]
    have hrow : (8 * i + L) / (8 * c) = i / c := by rw [hindex, pixelIndex_div hx]
    have hinside : i / c < H ↔ 8 * i + L < 8 * c * H := by
      rw [Nat.div_lt_iff_lt_mul hc, Nat.mul_assoc, Nat.mul_comm H]
      omega
    simp only [hx, true_and, hinside, hcol, hrow]

/-! ## The bits of a packed frame -/

/-- R100: lane L of a byte packed bit by bit is bit 7 - L. -/
theorem laneByte_lane (f : Nat → BitVec 1) {L : Nat} (hL : L < 8) :
    (laneByte f 8).extractLsb' (7 - L) 1 = f L := by
  have hbits : ∀ b0 b1 b2 b3 b4 b5 b6 b7 : BitVec 1, ∀ L < 8,
      (b0 ++ b1 ++ b2 ++ b3 ++ b4 ++ b5 ++ b6 ++ b7).extractLsb' (7 - L) 1
        = [b0, b1, b2, b3, b4, b5, b6, b7].getD L 0 := by decide
  rw [laneByte_eight, hbits _ _ _ _ _ _ _ _ L hL]
  interval_cases L <;> rfl

section Frame

variable (ink : BitVec 1) (rowPad : Bool) (Bin : Nat → Nat → Bool)

theorem packFrame_length (W H : Nat) : (packFrame ink rowPad Bin W H).length = outputLength rowPad W H := by
  simp [packFrame]

/-- R109: the bits of the frame's bytes, by lane. -/
theorem packFrame_bit {W H i L : Nat} (hi : i < outputLength rowPad W H) (hL : L < 8) :
    ((packFrame ink rowPad Bin W H).getD i 0).extractLsb' (7 - L) 1 = packBit ink rowPad Bin W H i L := by
  have hbyte : (packFrame ink rowPad Bin W H).getD i 0 = packByte ink rowPad Bin W H i := by
    rw [List.getD_eq_getElem _ _ (by rwa [packFrame_length])]
    simp [packFrame]
  rw [hbyte, packByte_eq_laneByte, laneByte_lane _ hL]

/-- R100, R102, R106: the bit of pixel (x, y) in the frame. -/
theorem packFrame_pixel {W H x y : Nat} (hx : x < W) (hy : y < H) :
    ((packFrame ink rowPad Bin W H).getD (byteIndex rowPad W (ceil8 W) x y) 0).extractLsb'
        (7 - pixelLane rowPad W x y) 1 = pixelBit ink (Bin y x) := by
  rw [packFrame_bit ink rowPad Bin (byteIndex_lt_outputLength rowPad hx hy) (pixelLane_lt rowPad W x y),
    packBit_of_pixel Bin (pixelAt_byteIndex rowPad hx hy)]

end Frame

/-- Settles O40: a pixel's bit stands at its byte and lane, and a lane without a pixel holds 0. -/
theorem packFrameBits : Obligations.PackFrameBits := by
  intro ink Bin W H
  refine ⟨⟨?_, fun x y hx hy => ?_, fun y L hy hW hWL hL => ?_⟩, ?_, fun x y hx hy => ?_, fun L hW hWL hL => ?_⟩
  · rw [packFrame_length, outputLength_eq, if_pos rfl]
  · have h := packFrame_pixel ink true Bin hx hy
    rwa [byteIndex_eq, ceil8_eq] at h
  · have hi : y * ceil8 W + W / 8 < outputLength true W H := by
      rw [outputLength_eq, if_pos rfl, ceil8_eq, Nat.mul_comm H]
      exact pixelIndex_lt (by omega) hy
    rw [← ceil8_eq, packFrame_bit ink true Bin hi hL, packBit_of_no_pixel Bin (pixelAt_rowPadding H y hW hWL)]
  · rw [packFrame_length, outputLength_eq, if_neg Bool.false_ne_true]
  · have h := packFrame_pixel ink false Bin hx hy
    rwa [byteIndex_eq] at h
  · have hi : W * H / 8 < outputLength false W H := by
      rw [outputLength_eq, if_neg Bool.false_ne_true]
      omega
    rw [packFrame_bit ink false Bin hi hL, packBit_of_no_pixel Bin (pixelAt_imagePadding hWL)]

/-- R102: the two colours are told apart by comparing the bit with INK_BIT. -/
theorem pixelBit_ne_ink (ink : BitVec 1) (white : Bool) : pixelBit ink white ≠ ink ↔ white = true := by
  revert ink white
  decide

/-- Settles O41: `unpack` reads the bit of the pixel's byte and lane, and compares it with INK_BIT. -/
theorem unpackInvertsPack : Obligations.UnpackInvertsPack := by
  intro ink rowPad Bin W H x y hx hy
  have hbit := packFrame_pixel ink rowPad Bin hx hy
  rw [pixelLane] at hbit
  simp only [unpack, hbit, pixelBit_ne_ink, Bool.decide_eq_true]

/-- Settles O42: both modes have the same length and the same pixel at every lane. -/
theorem packModesAgree : Obligations.PackModesAgree := by
  intro ink Bin W H hW
  have hbit (i : Nat) {L : Nat} (hL : L < 8) : packBit ink true Bin W H i L = packBit ink false Bin W H i L := by
    rw [packBit, packBit, pixelAt_of_whole_bytes H i hW hL]
  have hbyte : packByte ink true Bin W H = packByte ink false Bin W H := by
    funext i
    simp (disch := decide) only [packByte, hbit]
  rw [packFrame, packFrame, outputLength_of_whole_bytes true H hW, outputLength_of_whole_bytes false H hW, hbyte]

end Sys2Proof.Machine

namespace Sys2Proof.Safety
open Sys2Proof.Machine

/-! ## The bytes of a running job -/

/-- A job step that completes its byte writes it as the next one, and else writes none (R103, R105). -/
theorem JobInv.ditherPack_written {s : State} (hj : JobInv s) (hy : s.cy.toNat < s.jh.toNat) (p : Word) :
    let t := s.ditherPack s.cx.toNat s.cy.toNat p
    ((∀ i, t.outByte i = s.outByte i) ∧ bytesWritten t = bytesWritten s)
      ∨ (bytesWritten t = bytesWritten s + 1 ∧ t.outByte (bytesWritten s) ≠ none
        ∧ ∀ i, i ≠ bytesWritten s → t.outByte i = s.outByte i) := by
  intro t
  have hcount := (ditherPack_advanced p (hj.cx_lt hy) hy).bytesWritten_eq hj (hj.cx_lt hy) hy
  obtain ⟨b, ⟨hc, _, _, hout⟩ | ⟨hc, _, _, hout⟩⟩ := ditherPack_packer p hj.packed hy
  · refine .inr ⟨by rw [hcount, if_pos hc], ?_, fun i hi => ?_⟩ <;> rw [State.outByte, hout]
    · simp
    · exact Memory.read_write_other _ _ (by unfold outAddr; omega)
  · exact .inl ⟨fun i => by rw [State.outByte, hout, State.outByte], by rw [hcount, hc]; rfl⟩

/-- Settles O47: a job step is `ditherPack`, which writes the next byte or none; the invariant counts them. -/
theorem outBytesWrittenInOrder : Obligations.OutBytesWrittenInOrder := by
  intro s hi hb
  have hj := hi.job (State.busy_iff.1 hb)
  refine ⟨fun t hy h => ?_, hj.bytesWritten_end⟩
  obtain ⟨p, d, hread⟩ := exists_readsPixel s
  rw [engineMove_of_pixel hb hy, jobStep_of_readsPixel hread] at h
  cases h
  have hsame : SameJob s { s with draws := d } := rfl
  exact ((hsame.jobInv hj).ditherPack_written hy p).imp_right fun h => ⟨hj.bytesWritten_lt hy, h⟩

end Sys2Proof.Safety

/-! SUPPORT. Proofs about faults, error exit and construction (spec 60_exceptions.md). -/

namespace Sys2Proof.Machine
open Sys2Proof.Safety

/-! ## What stops a step -/

/-- The access op is a read or a write of the address a; `wait` reads STATUS and names no address (R67, R68). -/
def BusOp.Accesses (op : BusOp) (a : Addr) : Prop := (∃ n dst, op = .rd n a dst) ∨ (∃ n v, op = .wr n a v)

/-- An access the address map does not define answers BusError with its own address (R46). -/
theorem performOp_of_undefined {s : State} {op : BusOp} (h : opDefined s.params op = false) :
    ∃ a, performOp s op = .fault (.busError a) ∧ op.Accesses a := by
  cases op with
  | rd n a dst =>
    refine ⟨a, ?_, .inl ⟨n, dst, rfl⟩⟩
    rw [performOp, hostRead, busRead_of_undefined (Bool.eq_false_iff.1 h)]
  | wr n a v => exact ⟨a, busWrite_of_undefined (Bool.eq_false_iff.1 h) v, .inr ⟨n, v, rfl⟩⟩
  | wait dst => cases h

/-- The host's move answers a next state, or BusError on the front access of its program (R126). -/
theorem hostMove_next_or_busError (s : State) :
    (∃ t, hostMove s = .next t)
      ∨ ∃ op rest a, s.prog = op :: rest ∧ opDefined s.params op = false ∧ hostMove s = .fault (.busError a)
          ∧ op.Accesses a := by
  rcases hostMove_effect s with ⟨op, rest, _, hp, hd, _⟩ | ⟨_, t, h, _⟩
  · obtain ⟨a, hf, ha⟩ := performOp_of_undefined (s := s.setProg rest) hd
    exact .inr ⟨op, rest, a, hp, hd, (hostMove_cons hp).trans hf, ha⟩
  · exact .inl ⟨t, h⟩

/-- A step answers a next state, or BusError on the front access of the host's program, at the host's turn (R75, R126). -/
theorem step_next_or_busError (s : State) :
    (∃ t, step s = .next t)
      ∨ (mover s = .host ∧ ∃ op rest a, s.prog = op :: rest ∧ opDefined s.params op = false
          ∧ step s = .fault (.busError a) ∧ op.Accesses a) := by
  cases hm : mover s with
  | host =>
    have hstep : step s = hostMove (s.setTurns s.turns.tail) := by rw [step_eq, hm, move]
    rw [hstep]
    exact (hostMove_next_or_busError (s.setTurns s.turns.tail)).imp_right (⟨rfl, ·⟩)
  | engine =>
    obtain ⟨t, ht, _⟩ := step_of_engine hm
    exact .inl ⟨t, ht⟩

/-- Settles O8: the one way a step stops is BusError on the front access. -/
theorem stepsStopOnlyOnBusErrors : Obligations.StepsStopOnlyOnBusErrors := by
  intro s
  rcases step_next_or_busError s with ⟨t, h⟩ | ⟨hm, op, rest, a, hp, hd, h, ha⟩ <;> rw [h]
  · exact ⟨nofun, nofun⟩
  · refine ⟨nofun, fun f hf => ?_⟩
    cases hf
    exact ⟨hm, op, rest, a, hp, hd, rfl, ha⟩

/-! ## Programs of defined accesses -/

theorem HostEffect.prog_suffix {s t : State} (h : HostEffect s t) : t.prog <:+ s.prog := by
  cases h with
  | idle => exact List.suffix_rfl
  | read n a dst rest v d hp => exact hp ▸ List.suffix_cons _ rest
  | waited dst rest hp q hq =>
    rcases hq with rfl | ⟨_, rfl⟩
    · exact hp ▸ List.suffix_cons _ q
    · exact hp ▸ List.suffix_rfl
  | write n a v rest hp _ t hw =>
    have ht : t.prog = rest := by
      cases hw with
      | command _ _ hc => cases hc <;> rfl
      | width | height | pixel | ignored => simp
    rw [ht, hp]
    exact List.suffix_cons _ rest

theorem EngineEffect.prog {s t : State} (h : EngineEffect s t) : t.prog = s.prog := by
  cases h <;> simp

/-- A step only ever takes the front access off the host's program (R51). -/
theorem step_prog_suffix {s t : State} (h : step s = .next t) : t.prog <:+ s.prog := by
  rcases step_effect h with ⟨_, he⟩ | ⟨_, he⟩
  · exact he.prog_suffix
  · exact he.prog ▸ List.suffix_rfl

theorem step_keeps_programDefined {s t : State} (hs : ProgramDefined s) (h : step s = .next t) : ProgramDefined t :=
  fun op hop => (step_change h).params ▸ hs op ((step_prog_suffix h).mem hop)

theorem step_of_programDefined {s : State} (hs : ProgramDefined s) : ∃ t, step s = .next t := by
  rcases step_next_or_busError s with h | ⟨_, op, rest, _, hp, hd, _⟩
  · exact h
  · have hfront : op ∈ s.prog := hp ▸ List.mem_cons_self
    exact absurd (hd.symm.trans (hs op hfront)) Bool.false_ne_true

/-- Settles O9, by induction on the length of the run: a defined program steps, and its remainder is defined. -/
theorem definedProgramsNeverStop : Obligations.DefinedProgramsNeverStop := by
  intro k
  induction k with
  | zero => exact fun s hs => ⟨s, rfl, hs⟩
  | succ k ih =>
    intro s hs
    obtain ⟨u, hu⟩ := step_of_programDefined hs
    rw [run_succ k hu]
    exact ih u (step_keeps_programDefined hs hu)

/-! ## Error exit -/

/-- In ERROR a further ILLEGAL_CMD replaces the code alone (R124). -/
theorem raiseBlockError_illegalCmd_of_error {s : State} (h : s.jobState = .error) :
    s.raiseBlockError .illegalCmd = { s with err := .illegalCmd } := by
  rw [State.raiseBlockError, ← h]
  rfl

/-- Settles O16: ERROR is not BUSY, so each command is performed. -/
theorem errorExit : Obligations.ErrorExit := by
  intro s hs
  have hb : ¬ s.busy := fun h => by cases hs.symm.trans (State.busy_iff.1 h)
  obtain ⟨t, ht, _⟩ := exec_effect .process s
  refine ⟨⟨t, ht, exec_process_state hb ht⟩, ⟨_, exec_reset s, rfl⟩, fun w ⟨r, hw⟩ => ?_, exec_nop s⟩
  rw [busWrite_ctrl_of_illegal s hw, illegalCommand_of_not_busy hb, raiseBlockError_illegalCmd_of_error hs]

/-! ## Construction -/

theorem geometryOk_iff {r : Config.Raw} : r.geometryOk = true
    ↔ 1 ≤ r.panelW ∧ r.panelW ≤ 65535 ∧ 1 ≤ r.panelH ∧ r.panelH ≤ 65535 ∧ r.panelW * r.panelH % 8 = 0 := by
  simp [Config.Raw.geometryOk, and_assoc]

theorem imgCapOk_iff {r : Config.Raw} :
    r.imgCapOk = true ↔ r.panelW * r.panelH ≤ r.imgCap ∧ r.imgCap ≤ 2 ^ 20 := decide_eq_true_iff

theorem outCapOk_iff {r : Config.Raw} :
    r.outCapOk = true ↔ r.panelH * ((r.panelW + 7) / 8) ≤ r.outCap ∧ r.outCap ≤ 2 ^ 22 := decide_eq_true_iff

theorem construct_of_invalid_geometry {r : Config.Raw} (h : ¬ r.geometryOk = true) :
    construct r = .refused .configurationError := dif_neg h

theorem construct_of_params {r : Config.Raw} {p : Config.Params} (h : p.toRaw = r) :
    construct r = .next (State.powerOn p) := by
  subst h
  rw [construct, dif_pos p.geometry, dif_pos p.imgFits, dif_pos p.outFits]

/-- Settles O50: the checks of `construct` are the stated bounds, and they are the proof fields of `Params`. -/
theorem constructionChecksGeometry : Obligations.ConstructionChecksGeometry := by
  intro r
  dsimp only
  rw [← geometryOk_iff]
  refine ⟨construct_of_invalid_geometry, fun hg himg himg' hout hout' => ?_, fun p hp => hp ▸ p.geometry⟩
  exact ⟨⟨r, hg, imgCapOk_iff.2 ⟨himg, himg'⟩, outCapOk_iff.2 ⟨hout, hout'⟩⟩, rfl, construct_of_params rfl⟩

end Sys2Proof.Machine

/-! SUPPORT. Proofs about reset and about schedules (spec 70_reset_and_hazards.md). -/

namespace Sys2Proof.Machine
open Sys2Proof.Safety

/-! ## The power-on state -/

/-- Settles O49: the fields are zero, both memories are empty, and the engine has no move outside a job. -/
theorem powerOnState : Obligations.PowerOnState := by
  intro p
  refine ⟨status_powerOn p, rfl, rfl, rfl, rfl, rfl, rfl, ?_, ?_, fun _ => rfl, fun _ => rfl, ?_⟩
  · exact busRead_reg _ (by decide) (by decide)
  · exact busRead_reg _ (by decide) (by decide)
  · exact engineMove_of_not_busy nofun

/-- At power-on the memories are empty and no job runs (R136). -/
theorem State.powerOn_inv (p : Config.Params) : Inv (State.powerOn p) where
  imgCanonical := Memory.nil_wf
  outCanonical := Memory.nil_wf
  imgRegion := nofun
  imgWhole := nofun
  outRegion := nofun
  errCode := iff_of_true rfl nofun
  idleClear := fun _ => ⟨rfl, rfl⟩
  busyLength := nofun
  outFits := Nat.zero_le _
  outListed := nofun
  job := nofun

/-- Settles O51: the reset state is the power-on state with the default parameters. -/
theorem invAtPowerOn : Obligations.InvAtPowerOn := ⟨State.powerOn_inv, State.powerOn_inv Config.defaultParams⟩

/-! ## Laid-down turns -/

/-- The host's move uses up no further turn. -/
theorem HostEffect.turns {s t : State} (h : HostEffect s t) : t.turns = s.turns := by
  cases h with
  | idle | read | waited => rfl
  | write n a v rest _ _ t hw =>
    cases hw with
    | command _ _ hc => cases hc <;> rfl
    | width | height | pixel | ignored => simp

/-- A step uses up the turn in front, if one is laid down (R51). -/
theorem step_turns {s t : State} (h : step s = .next t) : t.turns = s.turns.tail := by
  rcases step_effect h with ⟨_, he⟩ | ⟨_, he⟩
  · exact he.turns
  · exact he.turns

/-! ## Programs without RESET -/

theorem mem_prog_of_nextCommand {s : State} {w : Word} (h : nextCommand s = some w) : .wr 4 0 w ∈ s.prog := by
  unfold nextCommand at h
  split at h
  · rename_i hp
    split at h
    · obtain ⟨rfl, rfl⟩ := ‹_ ∧ _›
      cases h
      exact hp ▸ List.mem_cons_self
    · cases h
  · cases h

/-- A program without a RESET has none as its next command. -/
theorem nextCommand_ne_reset {s : State} (hs : ∀ op ∈ s.prog, opResets op = false) {w : Word}
    (h : nextCommand s = some w) : decodeWord w ≠ .ok .reset := fun hd => by
  have hfalse := hs _ (mem_prog_of_nextCommand h)
  simp [opResets, hd] at hfalse

end Sys2Proof.Machine

namespace Sys2Proof.Safety
open Sys2Proof.Machine

/-! ## Fair schedules -/

/-- A BUSY state under the job invariant runs the job of a PROCESS with the latched dimensions (R29). -/
theorem JobInv.runsJobOf {s : State} (hj : JobInv s) (hb : s.busy) :
    RunsJobOf { s with imgW := s.jw, imgH := s.jh } s :=
  ⟨hb, hj, rfl, rfl, rfl, rfl⟩

/-- By induction on the turns laid down: a host turn leaves the job as it is, an engine turn takes the cursor one pixel on
or completes the job, and the turns cannot run out first (R75, R76, R146). -/
theorem RunsJobOf.reaches_done {s : State} (ts : List Agent) : ∀ u, RunsJobOf s u → u.turns = ts → ProgramDefined u →
    (∀ op ∈ u.prog, opResets op = false) →
    s.imgW.toNat * s.imgH.toNat + 1 ≤ cursorIndex u + ts.count .engine →
    ∃ k ≤ ts.length, ∃ t, run k u = .next t ∧ t.jobState = .done := by
  induction ts with
  | nil =>
    intro u hr _ _ _ hfair
    rw [List.count_nil] at hfair
    rcases hr.cursorIndex_cases with ⟨_, h⟩ | ⟨_, h⟩ <;> omega
  | cons g ts ih =>
    intro u hr hturns hdef hreset hfair
    obtain ⟨t, ht⟩ := step_of_programDefined hdef
    have hm := mover_of_turns hturns
    have goesOn (hb : t.busy) : ∃ k ≤ (g :: ts).length, ∃ v, run k u = .next v ∧ v.jobState = .done := by
      have hturns' : t.turns = ts := by rw [step_turns ht, hturns, List.tail_cons]
      have hindex := hr.cursorIndex_step ht hb
      have hfair' : s.imgW.toNat * s.imgH.toNat + 1 ≤ cursorIndex t + ts.count .engine := by
        rw [List.count_cons] at hfair
        simp only [hm, beq_iff_eq] at hindex hfair
        omega
      obtain ⟨k, hk, v, hv, hdone⟩ := ih t (hr.step_busy ht hb) hturns' (step_keeps_programDefined hdef ht)
        (fun op hop => hreset op ((step_prog_suffix ht).mem hop)) hfair'
      exact ⟨k + 1, Nat.succ_le_succ hk, v, (run_succ k ht).trans hv, hdone⟩
    cases g with
    | host => exact goesOn (hr.host_step hm ht fun w hw => nextCommand_ne_reset hreset hw)
    | engine =>
      rcases hr.engine_step hm ht with ⟨_, hb⟩ | ⟨_, hdone, _⟩
      · exact goesOn hb
      · exact ⟨1, Nat.succ_le_succ (Nat.zero_le _), t, run_succ 0 ht, hdone⟩

/-- Settles O55: the pixels left are those beyond the cursor, so the engine's turns suffice for them and the completion. -/
theorem fairSchedulesFinishTheJob : Obligations.FairSchedulesFinishTheJob := by
  intro s hb hj hdef hreset hfair
  have hleft : pixelsLeft s = s.jw.toNat * s.jh.toNat - cursorIndex s := rfl
  have hturns : s.jw.toNat * s.jh.toNat + 1 ≤ cursorIndex s + s.turns.count .engine := by omega
  exact (hj.runsJobOf hb).reaches_done s.turns s rfl hdef hreset hturns

end Sys2Proof.Safety
